-- ==== Sys2Proof/Word.lean ====
section
/-! DEFINITION. The types of the machine's values: bytes, words, addresses and register numbers
(10_state.md, 30_encoding.md rule R71). Nothing here computes. -/

namespace Sys2Proof

/-- An 8-bit value: a general register, a timer, SP or a byte of memory (R8). -/
abbrev Byte := BitVec 8

/-- A 16-bit value: an instruction word, I, pc or a stack entry (R8). -/
abbrev Word := BitVec 16

/-- A 12-bit address: the field `nnn` and the address of a Fatal or DecodeError record (R35, R71). -/
abbrev Addr := BitVec 12

/-- A 4-bit immediate: the field `n` (R71). -/
abbrev Nibble := BitVec 4

/-- The number of a general register, always in [0,16) (R20). -/
abbrev Reg := Fin 16

/-- The number of a key, always in [0,16) (R33, R222). -/
abbrev Key := Fin 16

/-- The flag register's number: VF is V[15] (R21). -/
abbrev VF : Reg := 15

end Sys2Proof
end

