-- ==== Sys2Proof/Syntax.lean ====
section
/-! DEFINITION. The instruction set: one constructor per row of spec/opcode_table.json, in the table's
order (30_encoding.md rule R75). Operand types are exactly the field widths of rule R71. -/

namespace Sys2Proof

/-- The 35 instructions of rule R75. `x`, `y` name general registers, `n`, `kk`, `nnn` are the 4-, 8- and
12-bit immediates. -/
inductive Instr where
  /-- `0000` HALT (R101) -/
  | halt
  /-- `00E0` CLS (R161) -/
  | cls
  /-- `00EE` RET (R102) -/
  | ret
  /-- `1nnn` JP nnn (R103) -/
  | jp (nnn : Addr)
  /-- `2nnn` CALL nnn (R104) -/
  | call (nnn : Addr)
  /-- `3xkk` SE Vx,kk (R111) -/
  | seImm (x : Reg) (kk : Byte)
  /-- `4xkk` SNE Vx,kk (R112) -/
  | sneImm (x : Reg) (kk : Byte)
  /-- `5xy0` SE Vx,Vy (R113) -/
  | seReg (x y : Reg)
  /-- `9xy0` SNE Vx,Vy (R114) -/
  | sneReg (x y : Reg)
  /-- `6xkk` LD Vx,kk (R121) -/
  | ldImm (x : Reg) (kk : Byte)
  /-- `7xkk` ADD Vx,kk (R122) -/
  | addImm (x : Reg) (kk : Byte)
  /-- `8xy0` LD Vx,Vy (R123) -/
  | ldReg (x y : Reg)
  /-- `8xy1` OR Vx,Vy (R124) -/
  | orReg (x y : Reg)
  /-- `8xy2` AND Vx,Vy (R125) -/
  | andReg (x y : Reg)
  /-- `8xy3` XOR Vx,Vy (R126) -/
  | xorReg (x y : Reg)
  /-- `8xy4` ADD Vx,Vy (R127) -/
  | addReg (x y : Reg)
  /-- `8xy5` SUB Vx,Vy (R128) -/
  | sub (x y : Reg)
  /-- `8xy6` SHR Vx,Vy (R129) -/
  | shr (x y : Reg)
  /-- `8xy7` SUBN Vx,Vy (R130) -/
  | subn (x y : Reg)
  /-- `8xyE` SHL Vx,Vy (R131) -/
  | shl (x y : Reg)
  /-- `Annn` LD I,nnn (R140) -/
  | ldI (nnn : Addr)
  /-- `Bnnn` JP V0,nnn (R105) -/
  | jpV0 (nnn : Addr)
  /-- `Cxkk` RND Vx,kk (R132) -/
  | rnd (x : Reg) (kk : Byte)
  /-- `Dxyn` DRW Vx,Vy,n (R163) -/
  | drw (x y : Reg) (n : Nibble)
  /-- `Ex9E` SKP Vx (R170) -/
  | skp (x : Reg)
  /-- `ExA1` SKNP Vx (R171) -/
  | sknp (x : Reg)
  /-- `Fx07` LD Vx,DT (R172) -/
  | ldVxDT (x : Reg)
  /-- `Fx0A` LD Vx,K (R173) -/
  | ldVxK (x : Reg)
  /-- `Fx15` LD DT,Vx (R174) -/
  | ldDTVx (x : Reg)
  /-- `Fx18` LD ST,Vx (R175) -/
  | ldSTVx (x : Reg)
  /-- `Fx1E` ADD I,Vx (R141) -/
  | addI (x : Reg)
  /-- `Fx29` LD F,Vx (R142) -/
  | ldF (x : Reg)
  /-- `Fx33` LD B,Vx (R143) -/
  | ldB (x : Reg)
  /-- `Fx55` LD [I],Vx (R144) -/
  | storeRegs (x : Reg)
  /-- `Fx65` LD Vx,[I] (R145) -/
  | loadRegs (x : Reg)
  deriving DecidableEq, Repr

end Sys2Proof
end

