-- ==== Sys2Proof/WellFormed.lean ====
section
/-! DEFINITION. When an instruction's operands fit the fields of its format (30_encoding.md rules R71,
R73), and when a program image fits behind address 512 (70_reset_and_hazards.md rule R242). The operand
types are exact, so every term of `Instr` passes; the checks themselves are on numbers, and refuse. -/

namespace Sys2Proof

/-- A register index is in [0,16) (R20, R71). -/
def regFits (r : Nat) : Bool := decide (r < 16)

/-- A 4-bit immediate is in [0,16) (R71, R73). -/
def nibbleFits (n : Nat) : Bool := decide (n < 16)

/-- An 8-bit immediate is in [0,256) (R71, R73). -/
def byteFits (k : Nat) : Bool := decide (k < 256)

/-- A 12-bit address is in [0,4096) (R71, R73). -/
def addrFits (a : Nat) : Bool := decide (a < 4096)

/-- Every operand of the instruction fits its field. -/
def Instr.wellFormed : Instr → Bool
  | .halt        => true
  | .cls         => true
  | .ret         => true
  | .jp nnn      => addrFits nnn.toNat
  | .call nnn    => addrFits nnn.toNat
  | .seImm x kk  => regFits x && byteFits kk.toNat
  | .sneImm x kk => regFits x && byteFits kk.toNat
  | .seReg x y   => regFits x && regFits y
  | .sneReg x y  => regFits x && regFits y
  | .ldImm x kk  => regFits x && byteFits kk.toNat
  | .addImm x kk => regFits x && byteFits kk.toNat
  | .ldReg x y   => regFits x && regFits y
  | .orReg x y   => regFits x && regFits y
  | .andReg x y  => regFits x && regFits y
  | .xorReg x y  => regFits x && regFits y
  | .addReg x y  => regFits x && regFits y
  | .sub x y     => regFits x && regFits y
  | .shr x y     => regFits x && regFits y
  | .subn x y    => regFits x && regFits y
  | .shl x y     => regFits x && regFits y
  | .ldI nnn     => addrFits nnn.toNat
  | .jpV0 nnn    => addrFits nnn.toNat
  | .rnd x kk    => regFits x && byteFits kk.toNat
  | .drw x y n   => regFits x && regFits y && nibbleFits n.toNat
  | .skp x       => regFits x
  | .sknp x      => regFits x
  | .ldVxDT x    => regFits x
  | .ldVxK x     => regFits x
  | .ldDTVx x    => regFits x
  | .ldSTVx x    => regFits x
  | .addI x      => regFits x
  | .ldF x       => regFits x
  | .ldB x       => regFits x
  | .storeRegs x => regFits x
  | .loadRegs x  => regFits x

/-- A program image fits in [512,4096): at most 3584 bytes (R204, R242, decision D25). -/
def imageFits (image : List Byte) : Bool := decide (image.length ≤ 3584)

end Sys2Proof
end

