-- ==== Sys2Proof/Decode.lean ====
section
/-! DEFINITION. Decoding a 16-bit word into an instruction or a named rejection (30_encoding.md rules R70
to R81), the encoder, and the rows of the opcode map. Field extraction happens here and nowhere else. -/

namespace Sys2Proof

/-! ### Fields of a word (R71) -/

/-- The `len` bits of `w` from bit `lo` upwards, as an unsigned number (R10: `w[lo+len-1 : lo]`). -/
def bits (w : Word) (lo len : Nat) : Nat := w.toNat / 2 ^ lo % 2 ^ len

/-- `op` = w[15:12]. -/
def fieldOp (w : Word) : Nat := bits w 12 4

/-- `x` = w[11:8]. -/
def fieldX (w : Word) : Reg := Fin.ofNat 16 (bits w 8 4)

/-- `y` = w[7:4]. -/
def fieldY (w : Word) : Reg := Fin.ofNat 16 (bits w 4 4)

/-- `n` = w[3:0]. -/
def fieldN (w : Word) : Nibble := BitVec.ofNat 4 (bits w 0 4)

/-- `kk` = w[7:0]. -/
def fieldKK (w : Word) : Byte := BitVec.ofNat 8 (bits w 0 8)

/-- `nnn` = w[11:0]. -/
def fieldNNN (w : Word) : Addr := BitVec.ofNat 12 (bits w 0 12)

/-! ### Decoding (R76, R77, R78) -/

/-- Why no instruction was decoded: one name per line of the list of unrecognised words in R78, and one
for a byte sequence too short to hold a word. -/
inductive DecodeReject where
  /-- `0nnn` with nnn not 000, 0E0 or 0EE -/
  | group0
  /-- `5xyN` with N not 0 -/
  | group5
  /-- `8xyN` with N one of 8, 9, A, B, C, D, F -/
  | group8
  /-- `9xyN` with N not 0 -/
  | group9
  /-- `ExNN` with NN not 9E or A1 -/
  | groupE
  /-- `FxNN` with NN none of 07, 0A, 15, 18, 1E, 29, 33, 55, 65 -/
  | groupF
  /-- fewer than two bytes -/
  | truncated
  deriving DecidableEq, Repr

/-- Group 0 (format Z): the whole word is fixed. -/
def decodeGroup0 (w : Word) : Except DecodeReject Instr :=
  match bits w 0 12 with
  | 0x000 => .ok .halt
  | 0x0E0 => .ok .cls
  | 0x0EE => .ok .ret
  | _     => .error .group0

/-- Group 8 (format XY): the low nibble selects. -/
def decodeGroup8 (w : Word) : Except DecodeReject Instr :=
  match bits w 0 4 with
  | 0x0 => .ok (.ldReg (fieldX w) (fieldY w))
  | 0x1 => .ok (.orReg (fieldX w) (fieldY w))
  | 0x2 => .ok (.andReg (fieldX w) (fieldY w))
  | 0x3 => .ok (.xorReg (fieldX w) (fieldY w))
  | 0x4 => .ok (.addReg (fieldX w) (fieldY w))
  | 0x5 => .ok (.sub (fieldX w) (fieldY w))
  | 0x6 => .ok (.shr (fieldX w) (fieldY w))
  | 0x7 => .ok (.subn (fieldX w) (fieldY w))
  | 0xE => .ok (.shl (fieldX w) (fieldY w))
  | _   => .error .group8

/-- Group E (format X): the low byte selects. -/
def decodeGroupE (w : Word) : Except DecodeReject Instr :=
  match bits w 0 8 with
  | 0x9E => .ok (.skp (fieldX w))
  | 0xA1 => .ok (.sknp (fieldX w))
  | _    => .error .groupE

/-- Group F (format X): the low byte selects. -/
def decodeGroupF (w : Word) : Except DecodeReject Instr :=
  match bits w 0 8 with
  | 0x07 => .ok (.ldVxDT (fieldX w))
  | 0x0A => .ok (.ldVxK (fieldX w))
  | 0x15 => .ok (.ldDTVx (fieldX w))
  | 0x18 => .ok (.ldSTVx (fieldX w))
  | 0x1E => .ok (.addI (fieldX w))
  | 0x29 => .ok (.ldF (fieldX w))
  | 0x33 => .ok (.ldB (fieldX w))
  | 0x55 => .ok (.storeRegs (fieldX w))
  | 0x65 => .ok (.loadRegs (fieldX w))
  | _    => .error .groupF

/-- Groups 5 and 9 (format XY) recognise only the low nibble 0: the strict full-pattern match of R78. -/
def decodeNibble0 (w : Word) (i : Instr) (r : DecodeReject) : Except DecodeReject Instr :=
  match bits w 0 4 with
  | 0 => .ok i
  | _ => .error r

/-- Decode one word (R76). Total: every word is an instruction or rejected by name (R80). -/
def decode (w : Word) : Except DecodeReject Instr :=
  match fieldOp w with
  | 0x0 => decodeGroup0 w
  | 0x1 => .ok (.jp (fieldNNN w))
  | 0x2 => .ok (.call (fieldNNN w))
  | 0x3 => .ok (.seImm (fieldX w) (fieldKK w))
  | 0x4 => .ok (.sneImm (fieldX w) (fieldKK w))
  | 0x5 => decodeNibble0 w (.seReg (fieldX w) (fieldY w)) .group5
  | 0x6 => .ok (.ldImm (fieldX w) (fieldKK w))
  | 0x7 => .ok (.addImm (fieldX w) (fieldKK w))
  | 0x8 => decodeGroup8 w
  | 0x9 => decodeNibble0 w (.sneReg (fieldX w) (fieldY w)) .group9
  | 0xA => .ok (.ldI (fieldNNN w))
  | 0xB => .ok (.jpV0 (fieldNNN w))
  | 0xC => .ok (.rnd (fieldX w) (fieldKK w))
  | 0xD => .ok (.drw (fieldX w) (fieldY w) (fieldN w))
  | 0xE => decodeGroupE w
  | _   => decodeGroupF w

/-- The word of two bytes, the first one high (R53, R70). -/
def wordOfBytes (hi lo : Byte) : Word := BitVec.ofNat 16 (hi.toNat * 256 + lo.toNat)

/-- The high byte of a word, w[15:8]. -/
def highByte (w : Word) : Byte := BitVec.ofNat 8 (bits w 8 8)

/-- The low byte of a word, w[7:0]. -/
def lowByte (w : Word) : Byte := BitVec.ofNat 8 (bits w 0 8)

/-- Decode the instruction at the front of a byte sequence and give the bytes behind it: always exactly
two are consumed (R70). -/
def decodeBytes : List Byte → Except DecodeReject (Instr × List Byte)
  | hi :: lo :: rest =>
    match decode (wordOfBytes hi lo) with
    | .ok i    => .ok (i, rest)
    | .error r => .error r
  | _ => .error .truncated

/-- The instruction in a word numbered as spec/opcode_table.json numbers it: its `nbits` low bits are kept,
the bits above them are zero, and the two bytes are laid out high byte first (R53) for the decoder. -/
def decodeTableWord (nbits w : Nat) : Option Instr :=
  let word : Word := BitVec.ofNat 16 (w % 2 ^ nbits)
  match decodeBytes [highByte word, lowByte word] with
  | .ok (i, _) => some i
  | .error _   => none

/-! ### Encoding (R72, R75) -/

/-- Format A: `oooo nnnn nnnn nnnn`. -/
def encodeA (op : Nat) (nnn : Addr) : Word := BitVec.ofNat 16 (op * 4096 + nnn.toNat)

/-- Format XK: `oooo xxxx kkkk kkkk`. -/
def encodeXK (op : Nat) (x : Reg) (kk : Byte) : Word :=
  BitVec.ofNat 16 (op * 4096 + x.val * 256 + kk.toNat)

/-- Formats XY (`f` fixed) and XYN (`f` the immediate n): `oooo xxxx yyyy ffff`. -/
def encodeXY (op : Nat) (x y : Reg) (f : Nat) : Word :=
  BitVec.ofNat 16 (op * 4096 + x.val * 256 + y.val * 16 + f)

/-- Format X: `oooo xxxx ffff ffff`. -/
def encodeX (op : Nat) (x : Reg) (ff : Nat) : Word :=
  BitVec.ofNat 16 (op * 4096 + x.val * 256 + ff)

/-- The word of an instruction, from the patterns of R75. -/
def encode : Instr → Word
  | .halt        => 0x0000
  | .cls         => 0x00E0
  | .ret         => 0x00EE
  | .jp nnn      => encodeA 0x1 nnn
  | .call nnn    => encodeA 0x2 nnn
  | .seImm x kk  => encodeXK 0x3 x kk
  | .sneImm x kk => encodeXK 0x4 x kk
  | .seReg x y   => encodeXY 0x5 x y 0x0
  | .sneReg x y  => encodeXY 0x9 x y 0x0
  | .ldImm x kk  => encodeXK 0x6 x kk
  | .addImm x kk => encodeXK 0x7 x kk
  | .ldReg x y   => encodeXY 0x8 x y 0x0
  | .orReg x y   => encodeXY 0x8 x y 0x1
  | .andReg x y  => encodeXY 0x8 x y 0x2
  | .xorReg x y  => encodeXY 0x8 x y 0x3
  | .addReg x y  => encodeXY 0x8 x y 0x4
  | .sub x y     => encodeXY 0x8 x y 0x5
  | .shr x y     => encodeXY 0x8 x y 0x6
  | .subn x y    => encodeXY 0x8 x y 0x7
  | .shl x y     => encodeXY 0x8 x y 0xE
  | .ldI nnn     => encodeA 0xA nnn
  | .jpV0 nnn    => encodeA 0xB nnn
  | .rnd x kk    => encodeXK 0xC x kk
  | .drw x y n   => encodeXY 0xD x y n.toNat
  | .skp x       => encodeX 0xE x 0x9E
  | .sknp x      => encodeX 0xE x 0xA1
  | .ldVxDT x    => encodeX 0xF x 0x07
  | .ldVxK x     => encodeX 0xF x 0x0A
  | .ldDTVx x    => encodeX 0xF x 0x15
  | .ldSTVx x    => encodeX 0xF x 0x18
  | .addI x      => encodeX 0xF x 0x1E
  | .ldF x       => encodeX 0xF x 0x29
  | .ldB x       => encodeX 0xF x 0x33
  | .storeRegs x => encodeX 0xF x 0x55
  | .loadRegs x  => encodeX 0xF x 0x65

/-- The bytes of an instruction in the order they lie in memory (R55). -/
def encodeBytes (i : Instr) : List Byte := [highByte (encode i), lowByte (encode i)]

/-! ### The rows of the opcode map (R75, R76, spec/opcode_table.json) -/

/-- One row's mask and match values (R76). -/
structure OpcodeRow where
  mask  : Word
  fixed : Word
  deriving DecidableEq, Repr

/-- The row of the opcode map that an instruction belongs to. -/
def Instr.row : Instr → OpcodeRow
  | .halt        => ⟨0xFFFF, 0x0000⟩
  | .cls         => ⟨0xFFFF, 0x00E0⟩
  | .ret         => ⟨0xFFFF, 0x00EE⟩
  | .jp _        => ⟨0xF000, 0x1000⟩
  | .call _      => ⟨0xF000, 0x2000⟩
  | .seImm _ _   => ⟨0xF000, 0x3000⟩
  | .sneImm _ _  => ⟨0xF000, 0x4000⟩
  | .seReg _ _   => ⟨0xF00F, 0x5000⟩
  | .sneReg _ _  => ⟨0xF00F, 0x9000⟩
  | .ldImm _ _   => ⟨0xF000, 0x6000⟩
  | .addImm _ _  => ⟨0xF000, 0x7000⟩
  | .ldReg _ _   => ⟨0xF00F, 0x8000⟩
  | .orReg _ _   => ⟨0xF00F, 0x8001⟩
  | .andReg _ _  => ⟨0xF00F, 0x8002⟩
  | .xorReg _ _  => ⟨0xF00F, 0x8003⟩
  | .addReg _ _  => ⟨0xF00F, 0x8004⟩
  | .sub _ _     => ⟨0xF00F, 0x8005⟩
  | .shr _ _     => ⟨0xF00F, 0x8006⟩
  | .subn _ _    => ⟨0xF00F, 0x8007⟩
  | .shl _ _     => ⟨0xF00F, 0x800E⟩
  | .ldI _       => ⟨0xF000, 0xA000⟩
  | .jpV0 _      => ⟨0xF000, 0xB000⟩
  | .rnd _ _     => ⟨0xF000, 0xC000⟩
  | .drw _ _ _   => ⟨0xF000, 0xD000⟩
  | .skp _       => ⟨0xF0FF, 0xE09E⟩
  | .sknp _      => ⟨0xF0FF, 0xE0A1⟩
  | .ldVxDT _    => ⟨0xF0FF, 0xF007⟩
  | .ldVxK _     => ⟨0xF0FF, 0xF00A⟩
  | .ldDTVx _    => ⟨0xF0FF, 0xF015⟩
  | .ldSTVx _    => ⟨0xF0FF, 0xF018⟩
  | .addI _      => ⟨0xF0FF, 0xF01E⟩
  | .ldF _       => ⟨0xF0FF, 0xF029⟩
  | .ldB _       => ⟨0xF0FF, 0xF033⟩
  | .storeRegs _ => ⟨0xF0FF, 0xF055⟩
  | .loadRegs _  => ⟨0xF0FF, 0xF065⟩

/-- A word selects a row iff its bits under the row's mask are the row's match (R76). -/
def OpcodeRow.selects (r : OpcodeRow) (w : Word) : Bool := w &&& r.mask == r.fixed

/-- The 35 rows in the table's order, each read off one instruction of it. -/
def opcodeRows : List OpcodeRow :=
  ([.halt, .cls, .ret, .jp 0, .call 0, .seImm 0 0, .sneImm 0 0, .seReg 0 0, .sneReg 0 0, .ldImm 0 0,
    .addImm 0 0, .ldReg 0 0, .orReg 0 0, .andReg 0 0, .xorReg 0 0, .addReg 0 0, .sub 0 0, .shr 0 0,
    .subn 0 0, .shl 0 0, .ldI 0, .jpV0 0, .rnd 0 0, .drw 0 0 0, .skp 0, .sknp 0, .ldVxDT 0, .ldVxK 0,
    .ldDTVx 0, .ldSTVx 0, .addI 0, .ldF 0, .ldB 0, .storeRegs 0, .loadRegs 0] : List Instr).map Instr.row

end Sys2Proof
end

