-- ==== Sys2Proof/Config.lean ====
section
/-! DEFINITION. What is fixed for a machine (the configuration parameters of 00_scope.md rule R9) and
what is left free in every run (the draws of the same rule). The parameters' default values stand in
Machine/Defaults.lean. -/

namespace Sys2Proof

/-- `TIMERS_DURING_WAIT`: whether the tick phase runs while the key wait lasts (R218). -/
inductive TimersDuringWait where
  | keepRunning   -- the spec's `continue`
  | freeze
  deriving DecidableEq, Repr

/-- `KEY_INDEX_POLICY`: what SKP and SKNP do with a key number of 16 or more (R176). -/
inductive KeyIndexPolicy where
  | mask
  | fault
  deriving DecidableEq, Repr

/-- `BLOCK_I_POLICY`: what LD [I],Vx and LD Vx,[I] leave in I (R144, R145). -/
inductive BlockIPolicy where
  | unchanged
  | increment
  deriving DecidableEq, Repr

/-- `DECODE_POLICY`: whether an unrecognised word is a no-op or refused (R78). -/
inductive DecodePolicy where
  | strict
  | refuse
  deriving DecidableEq, Repr

/-- The configuration parameters of rule R9. State holds one such record, which no step changes, so a
statement about every state is a statement about every configuration. -/
structure Config where
  font             : Vector Byte 80
  timersDuringWait : TimersDuringWait
  keyIndex         : KeyIndexPolicy
  blockI           : BlockIPolicy
  decode           : DecodePolicy
  deriving DecidableEq, Repr

/-- One event from the input collaborator; a key number is in [0,16) by its type (R222, decision D37). -/
inductive InputEvent where
  | keyDown (k : Key)
  | keyUp (k : Key)
  | quit
  deriving DecidableEq, Repr

/-- The inputs of one iteration: the three draws of rules R9 and R40. -/
structure Inputs where
  elapsed : ℚ≥0
  events  : List InputEvent
  rnd     : Byte

/-- FREE VALUE (R9, decision D16): the seconds that pass before the tick phase of the iteration numbered by the argument; any
non-negative rational. It has no body: no proof can know one of its values. -/
opaque Config.elapsed : Nat → ℚ≥0

/-- FREE VALUE (R9, decision D20): the events the input collaborator delivers in that iteration, in order. -/
opaque Config.events : Nat → List InputEvent

/-- FREE VALUE (R9, decision D15): the byte on the random port in that iteration. -/
opaque Config.rnd : Nat → Byte

/-- The draws of iteration `n` together. -/
def Config.inputs (n : Nat) : Inputs where
  elapsed := Config.elapsed n
  events  := Config.events n
  rnd     := Config.rnd n

end Sys2Proof
end

