-- ==== Sys2Proof/Machine/Defaults.lean ====
section
/-! DEFINITION. The default values of the configuration parameters (00_scope.md rule R9,
70_reset_and_hazards.md rule R243). They stand apart from Config.lean so that a correction of one value
changes one body. -/

namespace Sys2Proof

/-- Glyphs 0 to 7 of the default FONT, five bytes each, top row first (R243). PRESUMED: the spec takes
the conventional CHIP-8 font, the source gives no bytes. -/
def fontLow : Vector Byte 40 :=
  #v[0xF0, 0x90, 0x90, 0x90, 0xF0,  0x20, 0x60, 0x20, 0x20, 0x70,
     0xF0, 0x10, 0xF0, 0x80, 0xF0,  0xF0, 0x10, 0xF0, 0x10, 0xF0,
     0x90, 0x90, 0xF0, 0x10, 0x10,  0xF0, 0x80, 0xF0, 0x10, 0xF0,
     0xF0, 0x80, 0xF0, 0x90, 0xF0,  0xF0, 0x10, 0x20, 0x40, 0x40]

/-- Glyphs 8 to F of the default FONT (R243). PRESUMED, as `fontLow`. -/
def fontHigh : Vector Byte 40 :=
  #v[0xF0, 0x90, 0xF0, 0x90, 0xF0,  0xF0, 0x90, 0xF0, 0x10, 0xF0,
     0xF0, 0x90, 0xF0, 0x90, 0x90,  0xE0, 0x90, 0xE0, 0x90, 0xE0,
     0xF0, 0x80, 0x80, 0x80, 0xF0,  0xE0, 0x90, 0x90, 0x90, 0xE0,
     0xF0, 0x80, 0xF0, 0x80, 0xF0,  0xF0, 0x80, 0xF0, 0x80, 0x80]

/-- The default of `FONT` (R9, R243, decision D24). -/
def defaultFont : Vector Byte 80 := fontLow ++ fontHigh

/-- The default configuration: continue, mask, unchanged, strict (R9; decisions D9, D10, D11, D18). -/
def defaultConfig : Config where
  font             := defaultFont
  timersDuringWait := .keepRunning
  keyIndex         := .mask
  blockI           := .unchanged
  decode           := .strict

end Sys2Proof
end

