-- ==== Sys2Proof/Machine/State.lean ====
section
/-! DEFINITION. The state of the machine as plain data (10_state.md rules R20 to R41), why a step can
stop, and the state after reset (70_reset_and_hazards.md rules R240 to R247). -/

namespace Sys2Proof.Machine

/-- Why the pacing loop is halted (R35). -/
inductive HaltCause where
  | haltWord
  | quit
  deriving DecidableEq, Repr

/-- The two structural stack violations (R35, R203). -/
inductive FatalKind where
  | stackOverflow
  | stackUnderflow
  deriving DecidableEq, Repr

/-- The pacing-loop state (R35). It is also what the `status` port shows (R40). -/
inductive Mode where
  | running
  | suspended (x : Reg)
  | halted (cause : HaltCause)
  | fatal (kind : FatalKind) (word : Word) (addr : Addr)
  deriving DecidableEq, Repr

/-- One record on the diagnostic port: the unrecognised word and its address (R37, R201). -/
structure DiagRecord where
  word : Word
  addr : Addr
  deriving DecidableEq, Repr

/-- The framebuffer: 32 rows of 64 pixels; true is set (R32). -/
abbrev FrameBuffer := Vector (Vector Bool 64) 32

/-- The state of the block. `v` to `tone` are the elements of R39; `frames` and `diag` are what the output
ports have carried, oldest first (R40); `cfg` holds the configuration parameters of R9. `rnd` (the byte on
the random port in the current iteration) and `iteration` (how many iterations have begun: the index of
the free values) are the model's own fields. -/
structure State where
  v         : Vector Byte 16
  i         : Word
  pc        : Word
  sp        : Byte
  stack     : Vector Word 16
  dt        : Byte
  st        : Byte
  mem       : List Host.Cell
  fb        : FrameBuffer
  key       : Vector Bool 16
  acc       : Rat
  mode      : Mode
  tone      : Bool
  frames    : List FrameBuffer
  diag      : List DiagRecord
  rnd       : Byte
  iteration : Nat
  cfg       : Config
  deriving DecidableEq, Repr

/-- Why the machine stops with a fault. -/
inductive Fault where
  /-- Raised by SKP and SKNP under `KEY_INDEX_POLICY = fault` when Vx ≥ 16: the spec calls it a model
  fault, the program is given no meaning (R176). Safe: the model stops. -/
  | keyIndexOutOfRange (value : Byte)
  /-- Raised by CALL and RET in a state with SP > 16, which is no legal value of SP and which no run
  reaches (R27). Safe: the model stops. -/
  | stackPointerIllegal (sp : Byte)
  deriving DecidableEq, Repr

/-- Why the machine refuses to go on. -/
inductive Refusal where
  /-- Raised by an arm of `exec` for an instruction that has no meaning yet. Safe: the model stops. -/
  | notModelled (mnemonic : String)
  /-- Raised by the step at an unrecognised word under `DECODE_POLICY = refuse` (R78, R201). Safe: the
  model stops. -/
  | unrecognisedWord (word : Word) (addr : Addr)
  deriving DecidableEq, Repr

/-- The machine after reset, before an image is loaded: every register, stack entry and timer zero, pc at
the entry point 0x200, memory as its reset contents (nothing listed), framebuffer clear, keys released,
acc zero, Running, tone off, nothing on the output ports (R241, R244, R245, R246). -/
def State.reset : State where
  v         := Vector.replicate 16 0
  i         := 0
  pc        := 0x200
  sp        := 0
  stack     := Vector.replicate 16 0
  dt        := 0
  st        := 0
  mem       := []
  fb        := Vector.replicate 32 (Vector.replicate 64 false)
  key       := Vector.replicate 16 false
  acc       := 0
  mode      := .running
  tone      := false
  frames    := []
  diag      := []
  rnd       := 0
  iteration := 0
  cfg       := defaultConfig

end Sys2Proof.Machine
end

