-- ==== Sys2Proof/Machine/Ops.lean ====
section
/-! DEFINITION. The named operations every meaning is built from: memory and the bus, the registers, the
program counter, the call stack, the framebuffer, the output ports, and entering and leaving the pacing
modes (the machine has no trap: 60_exceptions.md rules R208, R209). -/

namespace Sys2Proof.Machine

/-! ### Memory as a list of cells -/

/-- What an address that no cell lists reads as: the reset contents, FONT at [0,80) and zero elsewhere
(R243, R244). -/
def unlistedByte (font : Vector Byte 80) (a : Nat) : Byte :=
  if h : a < 80 then font[a] else 0

/-- The byte the first cell of address `a` lists. -/
def lookupCell : List Host.Cell → Nat → Option Byte
  | [], _ => none
  | (k, b) :: m, a => if k = a then some b else lookupCell m a

/-- Put a cell in its place by address, in place of one of the same address. -/
def insertCell : List Host.Cell → Nat → Byte → List Host.Cell
  | [], a, b => [(a, b)]
  | (k, c) :: m, a, b =>
    if a < k then (a, b) :: (k, c) :: m
    else if a = k then (a, b) :: m
    else (k, c) :: insertCell m a b

/-- Take every cell of address `a` out. -/
def eraseCell (m : List Host.Cell) (a : Nat) : List Host.Cell :=
  m.filter fun c => c.1 != a

/-- Read one byte of memory. -/
def Memory.read (font : Vector Byte 80) (m : List Host.Cell) (a : Nat) : Byte :=
  (lookupCell m a).getD (unlistedByte font a)

/-- Write one byte of memory; a byte equal to the reset contents is not listed. -/
def Memory.write (font : Vector Byte 80) (m : List Host.Cell) (a : Nat) (b : Byte) : List Host.Cell :=
  if b = unlistedByte font a then eraseCell m a else insertCell m a b

/-- Addresses rise strictly from `lo`, stay below 4096, and no cell lists the reset contents. -/
def Memory.wfFrom (font : Vector Byte 80) : Nat → List Host.Cell → Bool
  | _, [] => true
  | lo, (a, b) :: m =>
    decide (lo ≤ a) && decide (a < 4096) && b != unlistedByte font a && Memory.wfFrom font (a + 1) m

/-- The canonical form of memory: equal contents are equal lists. -/
def Memory.wf (font : Vector Byte 80) (m : List Host.Cell) : Bool := Memory.wfFrom font 0 m

/-! ### The bus (20_memory.md) -/

/-- Address masking at the access boundary: a computed address is reduced mod 4096 (R51). -/
def maskAddr (a : Nat) : Nat := a % 4096

/-- `MemRead(a, 1)` (R52). -/
def State.readByte (s : State) (a : Nat) : Byte := Memory.read s.cfg.font s.mem (maskAddr a)

/-- `MemWrite(a, 1, b)` (R52). -/
def State.writeByte (s : State) (a : Nat) (b : Byte) : State :=
  { s with mem := Memory.write s.cfg.font s.mem (maskAddr a) b }

/-- `MemRead(a, 2)`: big-endian, each byte's address masked by itself (R53). -/
def State.readWord (s : State) (a : Nat) : Word := wordOfBytes (s.readByte a) (s.readByte (a + 1))

/-- `MemWrite(a, 2, w)`: big-endian (R54, decision D34). No instruction uses it; the model places a word
with it. -/
def State.writeWord (s : State) (a : Nat) (w : Word) : State :=
  (s.writeByte a (highByte w)).writeByte (a + 1) (lowByte w)

/-- One byte access after the other, at `a`, `a + 1`, … (R57, R62). -/
def State.storeBytes (s : State) (a : Nat) : List Byte → State
  | [] => s
  | b :: bs => State.storeBytes (s.writeByte a b) (a + 1) bs

/-! ### Registers -/

/-- `V[x]`. -/
def State.getV (s : State) (x : Reg) : Byte := s.v[x.val]'x.isLt

/-- `V[x] <- b`. -/
def State.setV (s : State) (x : Reg) (b : Byte) : State := { s with v := s.v.set x.val b x.isLt }

/-- `I <- a mod 65536` (R26). -/
def State.setI (s : State) (a : Nat) : State := { s with i := BitVec.ofNat 16 a }

/-- `DT <- b`. -/
def State.setDT (s : State) (b : Byte) : State := { s with dt := b }

/-- `ST <- b`. -/
def State.setST (s : State) (b : Byte) : State := { s with st := b }

/-! ### Program counter (R23, R100, R110) -/

/-- `pc <- target mod 4096`: the one way pc is written (R23). -/
def State.setPc (s : State) (target : Nat) : State := { s with pc := BitVec.ofNat 16 (target % 4096) }

/-- The fetch advance, and the further advance of a skip: `pc <- (pc + 2) mod 4096` (R100, R110). -/
def State.advance (s : State) : State := s.setPc (s.pc.toNat + 2)

/-- A conditional skip (R110). -/
def State.skipIf (s : State) (c : Bool) : State := if c then s.advance else s

/-- `a0`, the address the running instruction was fetched from. An instruction runs with
pc = (a0 + 2) mod 4096 (R16, R100), so a0 is pc − 2 mod 4096. -/
def State.fetchAddr (s : State) : Addr := BitVec.ofNat 12 (s.pc.toNat + 4094)

/-! ### Call stack (R27, R28) -/

/-- `STACK[SP] <- pc; SP <- SP + 1`, for SP < 16. -/
def State.pushPc (s : State) (h : s.sp.toNat < 16) : State :=
  { s with stack := s.stack.set s.sp.toNat s.pc h, sp := BitVec.ofNat 8 (s.sp.toNat + 1) }

/-- `SP <- SP - 1; pc <- STACK[SP] mod 4096`, for 1 ≤ SP ≤ 16; the popped slot keeps its value. -/
def State.popPc (s : State) (h : s.sp.toNat - 1 < 16) : State :=
  ({ s with sp := BitVec.ofNat 8 (s.sp.toNat - 1) } : State).setPc (s.stack[s.sp.toNat - 1]'h).toNat

/-! ### Framebuffer and output ports (R32, R226, R201) -/

/-- The pixel at a row and a column, both wrapped (R160). -/
def FrameBuffer.pixel (f : FrameBuffer) (row col : Nat) : Bool :=
  (f[row % 32]'(Nat.mod_lt _ (by decide)))[col % 64]'(Nat.mod_lt _ (by decide))

/-- Set the pixel at a row and a column, both wrapped (R160). -/
def FrameBuffer.setPixel (f : FrameBuffer) (row col : Nat) (b : Bool) : FrameBuffer :=
  f.set (row % 32)
    ((f[row % 32]'(Nat.mod_lt _ (by decide))).set (col % 64) b (Nat.mod_lt _ (by decide)))
    (Nat.mod_lt _ (by decide))

/-- Every pixel clear. -/
def FrameBuffer.clear : FrameBuffer := Vector.replicate 32 (Vector.replicate 64 false)

/-- Replace the framebuffer's content. -/
def State.setFB (s : State) (f : FrameBuffer) : State := { s with fb := f }

/-- `notify_render()`: the whole framebuffer goes on the frame port (R226). -/
def State.notifyRender (s : State) : State := { s with frames := s.frames ++ [s.fb] }

/-- A DecodeError record goes on the diagnostic port (R201). -/
def State.emitDiag (s : State) (w : Word) (a : Addr) : State := { s with diag := s.diag ++ [⟨w, a⟩] }

/-! ### Keys (R33) -/

/-- `KEY[k] <- b`. -/
def State.setKey (s : State) (k : Key) (b : Bool) : State := { s with key := s.key.set k.val b k.isLt }

/-- `KEY[k]`. -/
def State.getKey (s : State) (k : Key) : Bool := s.key[k.val]'k.isLt

/-! ### Entering and leaving the pacing modes (R35, R203, R205, R213, R225) -/

/-- Halted and Fatal are terminal (R35, R213). -/
def Mode.isTerminal : Mode → Bool
  | .running     => false
  | .suspended _ => false
  | .halted _    => true
  | .fatal _ _ _ => true

/-- Enter a terminal mode; tone goes off with it (R210, R225). -/
def State.enterTerminal (s : State) (m : Mode) : State := { s with mode := m, tone := false }

/-- `signal Halt` and Quit: the loop enters Halted (R205, R215). -/
def State.haltWith (s : State) (c : HaltCause) : State := s.enterTerminal (.halted c)

/-- `raise Fatal(kind, w, a0)`: the one exceptional entry of the machine. The mode keeps the kind, the
instruction word and its address; nothing else changes but tone (R203). Nothing returns from it (R209). -/
def State.raiseFatal (s : State) (k : FatalKind) (w : Word) : State :=
  s.enterTerminal (.fatal k w s.fetchAddr)

/-- `suspend(x)`: the key wait begins (R173). -/
def State.suspend (s : State) (x : Reg) : State := { s with mode := .suspended x }

/-- The return from the key wait: `V[x] <- k; mode <- Running` (R224). -/
def State.resume (s : State) (x : Reg) (k : Key) : State :=
  { s with v := s.v.set x.val (BitVec.ofNat 8 k.val) x.isLt, mode := .running }

/-! ### Loading a program (70_reset_and_hazards.md) -/

/-- Place a program image at 512, verbatim (R242). -/
def State.loadImage (s : State) (image : List Byte) : State := s.storeBytes 512 image

/-- Boot: construct the machine with a configuration (its FONT is the reset contents of [0,80)), then load
the image; none for an image the loader rejects (R204, R242, R247). -/
def State.boot (cfg : Config) (image : List Byte) : Option State :=
  if imageFits image then some (State.loadImage { State.reset with cfg := cfg } image) else none

end Sys2Proof.Machine
end

