-- ==== Sys2Proof/Machine/Flags.lean ====
section
/-! DEFINITION. The arithmetic laws and every flag computation (42_alu.md rule R120, 10_state.md rules R21,
R22). Operands are taken as numbers, the exact result is narrowed to eight bits at the end. -/

namespace Sys2Proof.Machine

/-- Sum modulo 256. -/
def addByte (a b : Byte) : Byte := BitVec.ofNat 8 (a.toNat + b.toNat)

/-- Carry: the sum is above 255. -/
def carryOut (a b : Byte) : Bool := decide (a.toNat + b.toNat > 255)

/-- Difference modulo 256: `a - b + 256` where it would be negative. -/
def subByte (a b : Byte) : Byte := BitVec.ofNat 8 (a.toNat + 256 - b.toNat)

/-- NOT-borrow: the minuend is not below the subtrahend. -/
def notBorrow (a b : Byte) : Bool := decide (b.toNat ≤ a.toNat)

/-- One bit to the right; bit 7 becomes 0. -/
def shiftRight (b : Byte) : Byte := BitVec.ofNat 8 (b.toNat / 2)

/-- Bit 0: the bit a right shift drops. -/
def lowBit (b : Byte) : Bool := decide (b.toNat % 2 = 1)

/-- One bit to the left; bit 7 is dropped, bit 0 becomes 0. -/
def shiftLeft (b : Byte) : Byte := BitVec.ofNat 8 (b.toNat * 2)

/-- Bit 7: the bit a left shift drops. -/
def highBit (b : Byte) : Bool := decide (b.toNat / 128 = 1)

/-- A flag as VF holds it: 1 or 0 (R21). -/
def flagByte (c : Bool) : Byte := if c then 1 else 0

/-- `VF <- c ? 1 : 0`. -/
def State.setFlag (s : State) (c : Bool) : State := s.setV VF (flagByte c)

/-- Write a result and then the flag: the flag write is the last and wins when x = F (R22). -/
def State.setVFlag (s : State) (x : Reg) (b : Byte) (c : Bool) : State := (s.setV x b).setFlag c

end Sys2Proof.Machine
end

