-- ==== Sys2Proof/Machine/Operands.lean ====
section
/-! DEFINITION. Every operand form of the instruction set (30_encoding.md rule R73): the implicit and
computed operands behind the fields. `Vx`, `Vy` are `State.getV`; `kk`, `n`, `nnn` are used as they are. -/

namespace Sys2Proof.Machine

/-- The address of byte `j` of a memory operand at I, before masking (R51, R57). -/
def State.indexAddr (s : State) (j : Nat) : Nat := s.i.toNat + j

/-- The key that SKP and SKNP test, from the value of Vx; none where the policy gives it no meaning (R176). -/
def keyOf (p : KeyIndexPolicy) (b : Byte) : Option Key :=
  match p with
  | .mask  => some (Fin.ofNat 16 b.toNat)
  | .fault => if h : b.toNat < 16 then some ⟨b.toNat, h⟩ else none

/-- Registers 0 to `x` in order: the operand of the block transfers (R144, R145). -/
def regsUpTo (x : Reg) : List Reg :=
  ([0, 1, 2, 3, 4, 5, 6, 7, 8, 9, 10, 11, 12, 13, 14, 15] : List Reg).take (x.val + 1)

/-- What a block transfer of registers 0 to `x` leaves in I (R144, R145, parameter BLOCK_I_POLICY). -/
def State.afterBlock (s : State) (x : Reg) : State :=
  match s.cfg.blockI with
  | .unchanged => s
  | .increment => s.setI (s.i.toNat + x.val + 1)

/-- The three decimal digits of a byte, hundreds first (R143). -/
def bcdDigits (b : Byte) : List Byte :=
  [BitVec.ofNat 8 (b.toNat / 100), BitVec.ofNat 8 (b.toNat / 10 % 10), BitVec.ofNat 8 (b.toNat % 10)]

/-- The address of the glyph for a value: 5 times the value, glyph base 0, no mask (R142). -/
def glyphAddr (b : Byte) : Nat := 0 + 5 * b.toNat

end Sys2Proof.Machine
end

