-- ==== Sys2Proof/Machine/Alu.lean ====
section
/-! DEFINITION. Register loads, arithmetic, logic, shifts and random (42_alu.md rules R121 to R132). -/

namespace Sys2Proof.Machine

/-- LD Vx,kk (R121). -/
def execLdImm (x : Reg) (kk : Byte) (s : State) : Host.Outcome State Fault Refusal :=
  .next (s.setV x kk)

/-- ADD Vx,kk (R122): no flag. -/
def execAddImm (x : Reg) (kk : Byte) (s : State) : Host.Outcome State Fault Refusal :=
  .next (s.setV x (addByte (s.getV x) kk))

/-- LD Vx,Vy (R123). -/
def execLdReg (x y : Reg) (s : State) : Host.Outcome State Fault Refusal :=
  .next (s.setV x (s.getV y))

/-- OR Vx,Vy (R124): VF is not reset. -/
def execOr (x y : Reg) (s : State) : Host.Outcome State Fault Refusal :=
  .next (s.setV x (s.getV x ||| s.getV y))

/-- AND Vx,Vy (R125). -/
def execAnd (x y : Reg) (s : State) : Host.Outcome State Fault Refusal :=
  .next (s.setV x (s.getV x &&& s.getV y))

/-- XOR Vx,Vy (R126). -/
def execXor (x y : Reg) (s : State) : Host.Outcome State Fault Refusal :=
  .next (s.setV x (s.getV x ^^^ s.getV y))

/-- ADD Vx,Vy (R127): VF is the carry. -/
def execAddReg (x y : Reg) (s : State) : Host.Outcome State Fault Refusal :=
  .next (s.setVFlag x (addByte (s.getV x) (s.getV y)) (carryOut (s.getV x) (s.getV y)))

/-- SUB Vx,Vy (R128): VF is NOT-borrow of Vx − Vy. -/
def execSub (x y : Reg) (s : State) : Host.Outcome State Fault Refusal :=
  .next (s.setVFlag x (subByte (s.getV x) (s.getV y)) (notBorrow (s.getV x) (s.getV y)))

/-- SHR Vx,Vy (R129): the source is Vy. -/
def execShr (x y : Reg) (s : State) : Host.Outcome State Fault Refusal :=
  .next (s.setVFlag x (shiftRight (s.getV y)) (lowBit (s.getV y)))

/-- SUBN Vx,Vy (R130): VF is NOT-borrow of Vy − Vx. -/
def execSubn (x y : Reg) (s : State) : Host.Outcome State Fault Refusal :=
  .next (s.setVFlag x (subByte (s.getV y) (s.getV x)) (notBorrow (s.getV y) (s.getV x)))

/-- SHL Vx,Vy (R131): the source is Vy. -/
def execShl (x y : Reg) (s : State) : Host.Outcome State Fault Refusal :=
  .next (s.setVFlag x (shiftLeft (s.getV y)) (highBit (s.getV y)))

/-- RND Vx,kk (R132): the byte on the random port, masked. The step loads the port from a free value. -/
def execRnd (x : Reg) (kk : Byte) (s : State) : Host.Outcome State Fault Refusal :=
  .next (s.setV x (s.rnd &&& kk))

end Sys2Proof.Machine
end

