-- ==== Sys2Proof/Machine/Control.lean ====
section
/-! DEFINITION. Halt and control transfer (40_control.md rules R101 to R105). Each meaning runs with pc
already past the instruction (R16, R100). -/

namespace Sys2Proof.Machine

/-- HALT (R101, R205): the loop enters Halted(HaltWord). -/
def execHalt (s : State) : Host.Outcome State Fault Refusal :=
  .next (s.haltWith .haltWord)

/-- RET (R102): pop the return address, or Fatal(StackUnderflow) when the stack is empty (R203). An SP
above 16 is no legal value (R27) and faults. -/
def execRet (s : State) : Host.Outcome State Fault Refusal :=
  if s.sp = 0 then .next (s.raiseFatal .stackUnderflow (encode .ret))
  else if h : s.sp.toNat - 1 < 16 then .next (s.popPc h)
  else .fault (.stackPointerIllegal s.sp)

/-- JP nnn (R103). -/
def execJp (nnn : Addr) (s : State) : Host.Outcome State Fault Refusal :=
  .next (s.setPc nnn.toNat)

/-- CALL nnn (R104): push the address of the next instruction and jump, or Fatal(StackOverflow) when 16
addresses are on the stack (R203). An SP above 16 is no legal value (R27) and faults. -/
def execCall (nnn : Addr) (s : State) : Host.Outcome State Fault Refusal :=
  if s.sp = 16 then .next (s.raiseFatal .stackOverflow (encode (.call nnn)))
  else if h : s.sp.toNat < 16 then .next ((s.pushPc h).setPc nnn.toNat)
  else .fault (.stackPointerIllegal s.sp)

/-- JP V0,nnn (R105): the sum is reduced mod 4096; the register is always V0. -/
def execJpV0 (nnn : Addr) (s : State) : Host.Outcome State Fault Refusal :=
  .next (s.setPc ((s.getV 0).toNat + nnn.toNat))

end Sys2Proof.Machine
end

