-- ==== Sys2Proof/Machine/Draw.lean ====
section
/-! DEFINITION. The sprite compositor with its collision detector, CLS and DRW (44_draw.md rules R160 to
R163). The compositor is the loop of rule R162, row by row and bit by bit, most significant bit first. -/

namespace Sys2Proof.Machine

/-- A framebuffer under composition and whether a set pixel has been turned off so far. -/
abbrev Canvas := FrameBuffer × Bool

/-- One sprite bit: XOR it onto its pixel; a 1→0 transition is a collision (R162). -/
def plotBit (bit : Bool) (row col : Nat) (c : Canvas) : Canvas :=
  let old := FrameBuffer.pixel c.1 row col
  (FrameBuffer.setPixel c.1 row col (old ^^ bit), c.2 || (old && bit))

/-- Bit `b` of a sprite byte in drawing order: `(byte >> (7 - b)) & 1` (R160, R162). -/
def spriteBit (byte : Byte) (b : Nat) : Bool := decide (byte.toNat / 2 ^ (7 - b) % 2 = 1)

/-- The eight bits of one sprite byte, from column `x0` on (R162). -/
def plotRow (byte : Byte) (row x0 : Nat) (c : Canvas) : Canvas :=
  (List.range 8).foldl (fun c b => plotBit (spriteBit byte b) row (x0 + b) c) c

/-- `draw_sprite(origin, n, x0, y0)`: the new framebuffer and the collision (R162). -/
def drawSprite (s : State) (origin n x0 y0 : Nat) : Canvas :=
  (List.range n).foldl (fun c r => plotRow (s.readByte (origin + r)) (y0 + r) x0 c) (s.fb, false)

/-- CLS (R161): every pixel clear, then one frame. -/
def execCls (s : State) : Host.Outcome State Fault Refusal :=
  .next (s.setFB FrameBuffer.clear).notifyRender

/-- DRW Vx,Vy,n (R163): composite, VF is the collision, then one frame. -/
def execDrw (x y : Reg) (n : Nibble) (s : State) : Host.Outcome State Fault Refusal :=
  let c := drawSprite s s.i.toNat n.toNat (s.getV x).toNat (s.getV y).toNat
  .next ((s.setFB c.1).setFlag c.2).notifyRender

end Sys2Proof.Machine
end

