-- ==== Sys2Proof/Machine/Index.lean ====
section
/-! DEFINITION. Index register, glyphs, BCD and register block transfers (43_index_memory.md rules R140 to
R145). I is never reduced mod 4096; every access masks its own address (R26, R51). -/

namespace Sys2Proof.Machine

/-- LD I,nnn (R140). -/
def execLdI (nnn : Addr) (s : State) : Host.Outcome State Fault Refusal :=
  .next (s.setI nnn.toNat)

/-- ADD I,Vx (R141): modulo 65536, VF untouched. -/
def execAddI (x : Reg) (s : State) : Host.Outcome State Fault Refusal :=
  .next (s.setI (s.i.toNat + (s.getV x).toNat))

/-- LD F,Vx (R142). -/
def execLdF (x : Reg) (s : State) : Host.Outcome State Fault Refusal :=
  .next (s.setI (glyphAddr (s.getV x)))

/-- LD B,Vx (R143): three byte writes at I, I+1, I+2. -/
def execLdB (x : Reg) (s : State) : Host.Outcome State Fault Refusal :=
  .next (s.storeBytes (s.indexAddr 0) (bcdDigits (s.getV x)))

/-- LD [I],Vx (R144): x+1 byte writes from I on. -/
def execStoreRegs (x : Reg) (s : State) : Host.Outcome State Fault Refusal :=
  .next ((s.storeBytes (s.indexAddr 0) ((regsUpTo x).map s.getV)).afterBlock x)

/-- Load the listed registers, register `r` from the byte at I + r (R145). -/
def State.loadFrom (s : State) (rs : List Reg) : State :=
  rs.foldl (fun t r => t.setV r (t.readByte (t.indexAddr r.val))) s

/-- LD Vx,[I] (R145): x+1 byte reads from I on. -/
def execLoadRegs (x : Reg) (s : State) : Host.Outcome State Fault Refusal :=
  .next ((s.loadFrom (regsUpTo x)).afterBlock x)

end Sys2Proof.Machine
end

