-- ==== Sys2Proof/Machine/Keys.lean ====
section
/-! DEFINITION. Key queries, key wait and timer access (45_keys_timers.md rules R170 to R176). -/

namespace Sys2Proof.Machine

/-- A skip on the key that Vx names, taken when its state is `pressed` (R170, R171, R176). Under the fault
policy a Vx of 16 or more is a model fault. -/
def State.skipOnKey (s : State) (x : Reg) (pressed : Bool) : Host.Outcome State Fault Refusal :=
  match keyOf s.cfg.keyIndex (s.getV x) with
  | some k => .next (s.skipIf (s.getKey k == pressed))
  | none   => .fault (.keyIndexOutOfRange (s.getV x))

/-- SKP Vx (R170). -/
def execSkp (x : Reg) (s : State) : Host.Outcome State Fault Refusal :=
  s.skipOnKey x true

/-- SKNP Vx (R171). -/
def execSknp (x : Reg) (s : State) : Host.Outcome State Fault Refusal :=
  s.skipOnKey x false

/-- LD Vx,DT (R172). -/
def execLdVxDT (x : Reg) (s : State) : Host.Outcome State Fault Refusal :=
  .next (s.setV x s.dt)

/-- LD Vx,K (R173): the key wait begins; a poll phase ends it (R224). -/
def execLdVxK (x : Reg) (s : State) : Host.Outcome State Fault Refusal :=
  .next (s.suspend x)

/-- LD DT,Vx (R174). -/
def execLdDTVx (x : Reg) (s : State) : Host.Outcome State Fault Refusal :=
  .next (s.setDT (s.getV x))

/-- LD ST,Vx (R175). -/
def execLdSTVx (x : Reg) (s : State) : Host.Outcome State Fault Refusal :=
  .next (s.setST (s.getV x))

end Sys2Proof.Machine
end

