-- ==== Sys2Proof/Machine/Pacing.lean ====
section
/-! DEFINITION. The CPU step (40_control.md rule R100) and the pacing loop around it (60_exceptions.md rules
R201, R210 to R225): poll, tick, tone, and one whole iteration on explicit inputs. -/

namespace Sys2Proof.Machine

/-! ### Phase 1: fetch, decode, execute -/

/-- DecodeError: under `strict` a no-op with a diagnostic, under `refuse` a refusal (R77, R78, R201). The
state has pc already advanced. -/
def State.decodeError (s : State) (w : Word) : Host.Outcome State Fault Refusal :=
  match s.cfg.decode with
  | .strict => .next (s.emitDiag w s.fetchAddr)
  | .refuse => .refused (.unrecognisedWord w s.fetchAddr)

/-- The word at pc (R53, R100). -/
def State.fetchWord (s : State) : Word := s.readWord s.pc.toNat

/-- One CPU step: read the word at pc, advance pc by 2, decode, execute one instruction (R100). -/
def cpuStep (s : State) : Host.Outcome State Fault Refusal :=
  match decode s.fetchWord with
  | .ok i    => exec i s.advance
  | .error _ => s.advance.decodeError s.fetchWord

/-! ### Phase 2: poll -/

/-- `KeyDown k`: the key is pressed, and a key wait ends with it (R223, R224). -/
def State.keyDown (s : State) (k : Key) : State :=
  match s.mode with
  | .suspended x => (s.setKey k true).resume x k
  | _            => s.setKey k true

/-- `KeyUp k` (R223). -/
def State.keyUp (s : State) (k : Key) : State := s.setKey k false

/-- The poll phase: the events in delivery order; Quit halts and discards the rest (R210, R215). -/
def State.poll (s : State) : List InputEvent → State
  | []               => s
  | .keyDown k :: es => State.poll (s.keyDown k) es
  | .keyUp k :: es   => State.poll (s.keyUp k) es
  | .quit :: _       => s.haltWith .quit

/-! ### Phase 3: tick -/

/-- `TICK`: one sixtieth of a second (R8, R216). -/
def tickLength : Rat := 1 / 60

/-- How many whole ticks an amount of time holds: `floor(time / TICK)` (R216). -/
def wholeTicks (time : Rat) : Nat := (time / tickLength).floor.toNat

/-- `max(0, timer - k)` (R216, R217). -/
def decay (timer : Byte) (k : Nat) : Byte := BitVec.ofNat 8 (timer.toNat - k)

/-- `timer_tick(elapsed)` (R216, R217). -/
def State.timerTick (s : State) (elapsed : ℚ≥0) : State :=
  let time := s.acc + (elapsed : Rat)
  let k := wholeTicks time
  { s with acc := time - k * tickLength, dt := decay s.dt k, st := decay s.st k }

/-- Whether the tick phase is skipped: a key wait under `TIMERS_DURING_WAIT = freeze` (R210, R218). -/
def State.ticksFrozen (s : State) : Bool :=
  match s.mode, s.cfg.timersDuringWait with
  | .suspended _, .freeze => true
  | _, _                  => false

/-- The conditional tick phase (R210). -/
def State.tickPhase (s : State) (elapsed : ℚ≥0) : State :=
  if s.ticksFrozen then s else s.timerTick elapsed

/-! ### Phase 4: tone -/

/-- `tone_update()` (R225). -/
def State.toneUpdate (s : State) : State := { s with tone := decide (s.st ≠ 0) }

/-! ### One iteration -/

/-- Phases 2 to 4, each reached only while the mode is not terminal (R207, R210). -/
def State.finish (s : State) (inp : Inputs) : State :=
  if s.mode.isTerminal then s
  else
    let p := s.poll inp.events
    if p.mode.isTerminal then p else (p.tickPhase inp.elapsed).toneUpdate

/-- An iteration begins: the random port takes its byte, and the next iteration will draw afresh (R40). -/
def State.begin (s : State) (inp : Inputs) : State :=
  { s with rnd := inp.rnd, iteration := s.iteration + 1 }

/-- One iteration of the pacing loop on explicit inputs (R210). In a terminal mode no iteration is defined
and all state stays as it is (R213). -/
def iterate (inp : Inputs) (s : State) : Host.Outcome State Fault Refusal :=
  match s.mode with
  | .running =>
    match cpuStep (s.begin inp) with
    | .next t    => .next (t.finish inp)
    | .fault f   => .fault f
    | .refused r => .refused r
  | .suspended _ => .next ((s.begin inp).finish inp)
  | .halted _    => .next s
  | .fatal _ _ _ => .next s

/-- Store the instruction whose bits are `w` at pc, for the next step to fetch: `nbits` low bits of `w`,
the bits above them zero, high byte first (R53), with the mode Running so that the step fetches. -/
def State.placeInstr (s : State) (nbits w : Nat) : State :=
  ({ s with mode := .running } : State).writeWord s.pc.toNat (BitVec.ofNat 16 (w % 2 ^ nbits))

end Sys2Proof.Machine
end

