-- ==== Sys2Proof/Machine/Step.lean ====
section
/-! DEFINITION. One step of the machine is one iteration of the pacing loop (10_state.md rule R40,
60_exceptions.md rule R210) on the draws of that iteration. -/

namespace Sys2Proof.Machine

/-- One step: the iteration numbered `s.iteration`, on its free values. -/
def step (s : State) : Host.Outcome State Fault Refusal := iterate (Config.inputs s.iteration) s

/-- `s` with an instruction stored where the next step fetches. -/
def State.withFetchWord (s : State) (nbits w : Nat) : State := s.placeInstr nbits w

end Sys2Proof.Machine
end

