-- ==== Sys2Proof/Safety.lean ====
section
/-! DEFINITION. What a good state is, and the frames claims are stated with. -/

namespace Sys2Proof.Machine

/-- Tone follows the sound timer in every mode that iterates and is off in a terminal mode (R213, R225). -/
def State.toneAgrees (s : State) : Prop :=
  s.tone = (!s.mode.isTerminal && decide (s.st ≠ 0))

/-- The invariant of the machine: every register within the range the spec gives it, memory in its
canonical form, tone in step with the sound timer. -/
structure State.Inv (s : State) : Prop where
  /-- pc lies in [0,4096) (R23) -/
  pcInRange    : s.pc.toNat < 4096
  /-- SP is a legal value (R27) -/
  spLegal      : s.sp.toNat ≤ 16
  /-- every stack entry is a pc value (R28) -/
  stackInRange : ∀ j : Fin 16, (s.stack[j.val]'j.isLt).toNat < 4096
  /-- the accumulator is non-negative (R34) -/
  accNonneg    : 0 ≤ s.acc
  /-- the accumulator is below one tick (R34) -/
  accBelowTick : s.acc < tickLength
  /-- memory is in canonical form -/
  memCanonical : Memory.wf s.cfg.font s.mem = true
  /-- tone agrees with mode and ST -/
  tone         : s.toneAgrees

/-- The default policies for what the source leaves open as an instruction: no key number and no word is
without a meaning (R176 `mask`, R78 `strict`). -/
def State.noModelStops (s : State) : Prop :=
  s.cfg.keyIndex = .mask ∧ s.cfg.decode = .strict

/-! ### Frames: what two states agree on -/

/-- Every byte of memory reads the same. -/
def SameMemory (s t : State) : Prop := ∀ a, t.readByte a = s.readByte a

/-- Every general register outside `written` is the same. -/
def SameRegsBut (written : Reg → Prop) (s t : State) : Prop :=
  ∀ r, ¬ written r → t.getV r = s.getV r

/-- Every general register is the same. -/
def SameRegs (s t : State) : Prop := ∀ r, t.getV r = s.getV r

/-- SP and every stack entry are the same. -/
def SameStack (s t : State) : Prop := t.sp = s.sp ∧ t.stack = s.stack

/-- Both timers are the same. -/
def SameTimers (s t : State) : Prop := t.dt = s.dt ∧ t.st = s.st

/-- Every pixel is the same, and no frame was sent. -/
def SameScreen (s t : State) : Prop := t.fb = s.fb ∧ t.frames = s.frames

/-- Mode and tone are the same. -/
def SameMode (s t : State) : Prop := t.mode = s.mode ∧ t.tone = s.tone

/-- What no instruction writes is the same: keys, accumulator, diagnostics, the random port, the iteration
count and the configuration. -/
def SameOutside (s t : State) : Prop :=
  t.key = s.key ∧ t.acc = s.acc ∧ t.diag = s.diag ∧ t.rnd = s.rnd ∧ t.iteration = s.iteration ∧
    t.cfg = s.cfg

/-- Everything but the general registers, I, pc and memory is the same. -/
def SameRest (s t : State) : Prop :=
  SameStack s t ∧ SameTimers s t ∧ SameScreen s t ∧ SameMode s t ∧ SameOutside s t

/-- Nothing has changed but the general registers in `written`. -/
def OnlyRegs (written : Reg → Prop) (s t : State) : Prop :=
  SameRegsBut written s t ∧ t.i = s.i ∧ t.pc = s.pc ∧ SameMemory s t ∧ SameRest s t

/-- Nothing has changed but pc. -/
def OnlyPc (s t : State) : Prop := SameRegs s t ∧ t.i = s.i ∧ SameMemory s t ∧ SameRest s t

/-- Nothing has changed but I. -/
def OnlyI (s t : State) : Prop := SameRegs s t ∧ t.pc = s.pc ∧ SameMemory s t ∧ SameRest s t

/-- No general register, nor I, pc or memory has changed. -/
def SameCore (s t : State) : Prop := SameRegs s t ∧ t.i = s.i ∧ t.pc = s.pc ∧ SameMemory s t

end Sys2Proof.Machine
end

