-- ==== Sys2Proof/Certificates/Slice0/Obligations.lean ====
section
/-! DEFINITION. The statements for the provers. Each docstring names the part of spec/ it formalises; where a
statement rests on a decision or an inference of the spec (marked there as its own), it says so. -/

open Sys2Proof Sys2Proof.Machine

/-! ### Encoding (30_encoding.md) -/

/-- One word per family of the opcode map, written out from the patterns of 30_encoding.md section 3. The
patterns but for 0000, 6xkk, 8xy4, Annn, Dxyn are the spec's general knowledge (decision D26, log entry 1). -/
def Obligations.SampleWordsDecode : Prop :=
  decode 0x2210 = .ok (.call 0x210) ∧ decode 0x4206 = .ok (.sneImm 2 0x06) ∧
  decode 0x8016 = .ok (.shr 0 1) ∧ decode 0xF265 = .ok (.loadRegs 2) ∧
  decode 0xD015 = .ok (.drw 0 1 5) ∧ decode 0xE3A1 = .ok (.sknp 3) ∧ decode 0x5011 = .error .group5

/-- The encodings the source confirms by example: 0000, 6xkk, 8xy4, Annn, Dxyn, with the example words. -/
def Obligations.ConfirmedPatternsDecode : Prop :=
  decode 0x0000 = .ok .halt ∧
  (∀ (x : Reg) (kk : Byte),
    decode (BitVec.ofNat 16 (0x6000 + x.val * 0x100 + kk.toNat)) = .ok (.ldImm x kk)) ∧
  decode 0x600A = .ok (.ldImm 0 0x0A) ∧ decode 0x6105 = .ok (.ldImm 1 0x05) ∧
  (∀ x y : Reg,
    decode (BitVec.ofNat 16 (0x8004 + x.val * 0x100 + y.val * 0x10)) = .ok (.addReg x y)) ∧
  decode 0x8014 = .ok (.addReg 0 1) ∧
  (∀ nnn : Addr, decode (BitVec.ofNat 16 (0xA000 + nnn.toNat)) = .ok (.ldI nnn)) ∧
  decode 0xA000 = .ok (.ldI 0) ∧
  (∀ (x y : Reg) (n : Nibble),
    decode (BitVec.ofNat 16 (0xD000 + x.val * 0x100 + y.val * 0x10 + n.toNat)) = .ok (.drw x y n)) ∧
  decode 0xD015 = .ok (.drw 0 1 5)

/-- Decoding the encoded bytes of any well-formed instruction gives it back, with the bytes behind it: no bit
of an encoding is dropped, and exactly two bytes are consumed (30_encoding.md sections 1 to 3). -/
def Obligations.EncodeThenDecode : Prop :=
  ∀ (i : Instr) (rest : List Byte), i.wellFormed = true →
    decodeBytes (encodeBytes i ++ rest) = .ok (i, rest)

/-- Each recognised word has one meaning, and the encoder writes that word (30_encoding.md section 3). -/
def Obligations.DecodeThenEncode : Prop :=
  ∀ (w : Word) (i : Instr), decode w = .ok i → encode i = w ∧ i.wellFormed = true

/-- The decoder is the mask-and-match selection of the opcode map: what it decodes is selected by its own row
and by no other, and whatever a row selects it decodes into that row (30_encoding.md section 3, where the
disjointness of the rows is the spec's own inference). -/
def Obligations.DecodeSelectsTheMatchingRow : Prop :=
  ∀ w : Word,
    (∀ i, decode w = .ok i → i.row ∈ opcodeRows ∧ i.row.selects w = true ∧
      ∀ r ∈ opcodeRows, r.selects w = true → r = i.row) ∧
    (∀ r ∈ opcodeRows, r.selects w = true → ∃ i, decode w = .ok i ∧ i.row = r)

/-- The list of unrecognised words of 30_encoding.md section 4, by the nibbles of the word. -/
def UnrecognisedWord (w : Word) : Prop :=
  let op := w.toNat / 0x1000
  let n := w.toNat % 0x10
  let kk := w.toNat % 0x100
  let nnn := w.toNat % 0x1000
  (op = 0x0 ∧ nnn ∉ [0x000, 0x0E0, 0x0EE]) ∨ (op = 0x5 ∧ n ≠ 0) ∨ (op = 0x9 ∧ n ≠ 0) ∨
  (op = 0x8 ∧ n ∈ [0x8, 0x9, 0xA, 0xB, 0xC, 0xD, 0xF]) ∨ (op = 0xE ∧ kk ∉ [0x9E, 0xA1]) ∨
  (op = 0xF ∧ kk ∉ [0x07, 0x0A, 0x15, 0x18, 0x1E, 0x29, 0x33, 0x55, 0x65])

/-- The decoder rejects exactly the words of that list (strict decoding is the spec's decision D11). -/
def Obligations.RejectedWordsAreTheListedOnes : Prop :=
  ∀ w : Word, (∃ r, decode w = .error r) ↔ UnrecognisedWord w

/-! ### The step and the pacing loop (40_control.md section 1, 60_exceptions.md section 3) -/

/-- A step in Running whose two bytes at pc decode to a well-formed instruction runs exactly it, after the
iteration has begun and pc has advanced by 2, and then finishes the iteration (poll, tick, tone). -/
def Obligations.StepRunsTheDecodedInstruction : Prop :=
  ∀ (s : State) (i : Instr) (rest : List Byte),
    s.mode = .running → i.wellFormed = true →
    decodeBytes [s.readByte s.pc.toNat, s.readByte (s.pc.toNat + 1)] = .ok (i, rest) →
    (s.begin (Config.inputs s.iteration)).advance.pc.toNat = (s.pc.toNat + 2) % 4096 ∧
    step s =
      match exec i (s.begin (Config.inputs s.iteration)).advance with
      | .next t    => .next (t.finish (Config.inputs s.iteration))
      | .fault f   => .fault f
      | .refused r => .refused r

/-- An unrecognised word is a precise no-op under `strict`: pc has advanced by 2, one record with the word and
its address is on the diagnostic port, nothing else has changed. Under `refuse` the model refuses it
(60_exceptions.md section 1; decisions D11, D12, log entries 3, 28, 31). -/
def Obligations.UnrecognisedWordIsANoOp : Prop :=
  ∀ (s : State) (r : DecodeReject), decode s.fetchWord = .error r →
    ∃ a : Addr, a.toNat = s.pc.toNat % 4096 ∧
      (s.cfg.decode = .strict →
        ∃ t, cpuStep s = .next t ∧ t.pc.toNat = (s.pc.toNat + 2) % 4096 ∧
          t.diag = s.diag ++ [⟨s.fetchWord, a⟩] ∧ SameRegs s t ∧ t.i = s.i ∧ SameMemory s t ∧
          SameStack s t ∧ SameTimers s t ∧ SameScreen s t ∧ SameMode s t ∧ t.key = s.key ∧
          t.acc = s.acc ∧ t.rnd = s.rnd ∧ t.iteration = s.iteration ∧ t.cfg = s.cfg) ∧
      (s.cfg.decode = .refuse → cpuStep s = .refused (.unrecognisedWord s.fetchWord a))

/-- In Halted and Fatal all state stays as it is and no instruction executes (60_exceptions.md section 3; that
a step there answers the same state is DEDUCED, log entry 16). -/
def Obligations.TerminalStatesStay : Prop :=
  ∀ s : State, s.mode.isTerminal = true → step s = .next s

/-- A key wait executes no instruction: a step in Suspended(x) always completes, and pc, I, the stack, memory,
the screen and every register but the waited-for one stay; that one keeps its value or takes a key number
(60_exceptions.md sections 3 and 7). -/
def Obligations.KeyWaitRunsNoInstruction : Prop :=
  ∀ (s : State) (x : Reg), s.mode = .suspended x →
    ∃ t, step s = .next t ∧ t.pc = s.pc ∧ t.i = s.i ∧ SameStack s t ∧ SameMemory s t ∧
      SameScreen s t ∧ t.diag = s.diag ∧ t.cfg = s.cfg ∧ (∀ r, r ≠ x → t.getV r = s.getV r) ∧
      (t.getV x = s.getV x ∨ ∃ k : Key, (t.getV x).toNat = k.val)

/-- Polling, ticking and the tone update never divert the program: after an instruction they leave pc, I, the
stack, memory, the screen and the diagnostics, and every register no key wait names (60_exceptions.md
section 2). -/
def Obligations.EventsAndTicksNeverDivertControl : Prop :=
  ∀ (s : State) (inp : Inputs),
    (s.finish inp).pc = s.pc ∧ (s.finish inp).i = s.i ∧ SameStack s (s.finish inp) ∧
    SameMemory s (s.finish inp) ∧ SameScreen s (s.finish inp) ∧ (s.finish inp).diag = s.diag ∧
    ∀ r, s.mode ≠ .suspended r → (s.finish inp).getV r = s.getV r

/-- The only stops of a step, each in Running: a fault where SKP or SKNP at pc reads a Vx of 16 or more under the
fault policy, a fault where CALL or RET at pc meets an SP that is no legal value, and the refusal of an
unrecognised word, with that word and its address, under the refuse policy (00_scope.md section 3, 10_state.md
section 3, 45_keys_timers.md, 60_exceptions.md section 1; decisions D10, D11, log entries 13, 28). -/
def Obligations.StepStopsOnlyWhereTheSpecGivesNoMeaning : Prop :=
  ∀ s : State,
    (∀ f, step s = .fault f → s.mode = .running ∧
      ((s.cfg.keyIndex = .fault ∧ ∃ x : Reg,
          (decode s.fetchWord = .ok (.skp x) ∨ decode s.fetchWord = .ok (.sknp x)) ∧
          16 ≤ (s.getV x).toNat ∧ f = .keyIndexOutOfRange (s.getV x)) ∨
        (16 < s.sp.toNat ∧
          (decode s.fetchWord = .ok .ret ∨ ∃ nnn, decode s.fetchWord = .ok (.call nnn)) ∧
          f = .stackPointerIllegal s.sp))) ∧
    (∀ r, step s = .refused r → s.mode = .running ∧ s.cfg.decode = .refuse ∧
      (∃ e, decode s.fetchWord = .error e) ∧
      ∃ a : Addr, a.toNat = s.pc.toNat % 4096 ∧ r = .unrecognisedWord s.fetchWord a)

/-- `tone` is on exactly when the sound timer is not 0, after every iteration that does not end in a terminal
mode, and off in a terminal mode (60_exceptions.md section 6; decisions D21, D22). -/
def Obligations.ToneFollowsTheSoundTimer : Prop :=
  ∀ s t : State, s.mode.isTerminal = false → step s = .next t →
    t.tone = (!t.mode.isTerminal && decide (t.st ≠ 0))

/-! ### The invariant -/

/-- The state after reset meets the invariant. -/
def Obligations.ResetMeetsTheInvariant : Prop := State.reset.Inv

/-- So does every booted machine, whatever its configuration and its image. -/
def Obligations.BootMeetsTheInvariant : Prop :=
  ∀ (cfg : Config) (image : List Byte) (s : State), State.boot cfg image = some s → s.Inv

/-- Every step keeps the invariant: pc and every stack entry below 4096, SP at most 16, the accumulator in
[0, 1/60), memory canonical, tone in step with ST and mode (10_state.md sections 2, 3, 6). -/
def Obligations.StepKeepsTheInvariant : Prop :=
  ∀ s t : State, s.Inv → step s = .next t → t.Inv

/-- The machine never gets stuck on any word, any pc value or any input: in a good state, under the default
policies for key numbers and unrecognised words, every step answers a next state and keeps the configuration
(40_control.md section 1, 60_exceptions.md section 1). -/
def Obligations.StepAlwaysCompletes : Prop :=
  ∀ s : State, s.Inv → s.noModelStops → ∃ t, step s = .next t ∧ t.cfg = s.cfg

/-! ### Whole-machine rules over all instructions -/

/-- Only CALL and RET touch SP and the stack (10_state.md section 3). -/
def Obligations.OnlyCallAndRetTouchTheStack : Prop :=
  ∀ (i : Instr) (s t : State), exec i s = .next t → (∀ nnn, i ≠ .call nnn) → i ≠ .ret → SameStack s t

/-- Only LD B,Vx and LD [I],Vx write memory (20_memory.md section 5). -/
def Obligations.OnlyStoresTouchMemory : Prop :=
  ∀ (i : Instr) (s t : State), exec i s = .next t → (∀ x, i ≠ .ldB x) → (∀ x, i ≠ .storeRegs x) →
    SameMemory s t

/-- Only CLS and DRW write the framebuffer, and only they send a frame: one each, of the whole new
framebuffer (10_state.md section 5, 60_exceptions.md section 6; decision D23). -/
def Obligations.OnlyClsAndDrwTouchTheScreen : Prop :=
  ∀ (i : Instr) (s t : State), exec i s = .next t →
    ((i = .cls ∨ ∃ x y n, i = .drw x y n) → t.frames = s.frames ++ [t.fb]) ∧
    (i ≠ .cls → (∀ x y n, i ≠ .drw x y n) → SameScreen s t)

/-- No instruction writes the key table, the accumulator, the diagnostic port or the configuration, and only
LD DT,Vx and LD ST,Vx write a timer (10_state.md sections 4 to 6). -/
def Obligations.InstructionsLeaveKeysAndPacing : Prop :=
  ∀ (i : Instr) (s t : State), exec i s = .next t →
    SameOutside s t ∧ ((∀ x, i ≠ .ldDTVx x) → t.dt = s.dt) ∧ ((∀ x, i ≠ .ldSTVx x) → t.st = s.st)

/-- An instruction changes the mode only by HALT, by LD Vx,K, by CALL on a full stack and by RET on an empty
one (60_exceptions.md sections 1 and 2). -/
def Obligations.OnlyFourEventsChangeTheMode : Prop :=
  ∀ (i : Instr) (s t : State), exec i s = .next t → ¬ SameMode s t →
    i = .halt ∨ (∃ x, i = .ldVxK x) ∨ (i = .ret ∧ s.sp = 0) ∨ ((∃ nnn, i = .call nnn) ∧ s.sp = 16)

/-- The six instructions that write VF as a flag. -/
def WritesFlag (i : Instr) : Prop :=
  (∃ x y, i = .addReg x y) ∨ (∃ x y, i = .sub x y) ∨ (∃ x y, i = .subn x y) ∨ (∃ x y, i = .shr x y) ∨
  (∃ x y, i = .shl x y) ∨ ∃ x y n, i = .drw x y n

/-- The instructions that write VF as an ordinary register: those that name it as a destination. -/
def NamesVFAsDestination (i : Instr) : Prop :=
  (∃ kk, i = .ldImm VF kk) ∨ (∃ kk, i = .addImm VF kk) ∨ (∃ y, i = .ldReg VF y) ∨
  (∃ y, i = .orReg VF y) ∨ (∃ y, i = .andReg VF y) ∨ (∃ y, i = .xorReg VF y) ∨
  (∃ kk, i = .rnd VF kk) ∨ i = .ldVxDT VF ∨ i = .loadRegs VF

/-- Flags go to VF alone. Each of the six flag-writing instructions leaves 0 or 1 in it, also where VF is its
destination (the flag write is the last: decision D7, log entry 11): ADD Vx,Vy the carry, SUB and SUBN the
NOT-borrow, SHR bit 0 of Vy, SHL bit 7 of Vy, DRW the collision (some pixel went from set to clear). No other
instruction writes it but one that names it as its destination; that ADD I,Vx has no flag is decision D8 (log
entry 12) (10_state.md section 1, 42_alu.md, 43_index_memory.md, 44_draw.md). -/
def Obligations.FlagsGoOnlyToVF : Prop :=
  (∀ (i : Instr) (s t : State), exec i s = .next t →
    (WritesFlag i → t.getV VF = 0 ∨ t.getV VF = 1) ∧
    (¬ WritesFlag i → ¬ NamesVFAsDestination i → t.getV VF = s.getV VF)) ∧
  (∀ (x y : Reg) (s t : State), x ≠ VF →
    (exec (.addReg x y) s = .next t →
      (t.getV VF = 1 ↔ (s.getV x).toNat + (s.getV y).toNat > 255)) ∧
    (exec (.sub x y) s = .next t → (t.getV VF = 1 ↔ (s.getV x).toNat ≥ (s.getV y).toNat)) ∧
    (exec (.subn x y) s = .next t → (t.getV VF = 1 ↔ (s.getV y).toNat ≥ (s.getV x).toNat)) ∧
    (exec (.shr x y) s = .next t → (t.getV VF = 1 ↔ (s.getV y).getLsbD 0 = true)) ∧
    (exec (.shl x y) s = .next t → (t.getV VF = 1 ↔ (s.getV y).getLsbD 7 = true))) ∧
  (∀ (x y : Reg) (n : Nibble) (s t : State), exec (.drw x y n) s = .next t →
    (t.getV VF = 1 ↔
      ∃ r < 32, ∃ c < 64, FrameBuffer.pixel s.fb r c = true ∧ FrameBuffer.pixel t.fb r c = false))

/-! ### Control transfer (40_control.md) -/

/-- The iteration of a Halt or a Fatal has no poll and no tick phase: whatever its inputs, registers, I, memory,
the stack, timers, screen, keys, the accumulator, the diagnostics and the configuration stay, pc keeps the
fetch advance, and tone is off. -/
def EndsWithoutPollOrTick (s t : State) : Prop :=
  t.pc.toNat = (s.pc.toNat + 2) % 4096 ∧ t.tone = false ∧ SameRegs s t ∧ t.i = s.i ∧ SameMemory s t ∧
    SameStack s t ∧ SameTimers s t ∧ SameScreen s t ∧ t.key = s.key ∧ t.acc = s.acc ∧
    t.diag = s.diag ∧ t.cfg = s.cfg

/-- HALT: only the word 0000 is HALT, the mode becomes Halted(HaltWord), tone goes off and nothing else
changes; a step that fetches it ends there with pc past it, without a poll or a tick phase, because nothing
follows in an iteration once the mode is terminal (40_control.md section 2, 60_exceptions.md sections 1 to 3;
decisions D11, D21, log entries 3, 18). -/
def Obligations.HaltHalts : Prop :=
  (∀ w : Word, decode w = .ok .halt ↔ w = 0) ∧
  (∀ w : Word, w.toNat < 0x1000 → w.toNat ∉ [0x000, 0x0E0, 0x0EE] → decode w = .error .group0) ∧
  (∀ s : State, ∃ t, exec .halt s = .next t ∧ t.mode = .halted .haltWord ∧ t.tone = false ∧
    SameCore s t ∧ SameStack s t ∧ SameTimers s t ∧ SameScreen s t ∧ SameOutside s t) ∧
  (∀ s : State, s.mode = .running → s.readByte s.pc.toNat = 0 → s.readByte (s.pc.toNat + 1) = 0 →
    ∃ t, step s = .next t ∧ t.mode = .halted .haltWord ∧ EndsWithoutPollOrTick s t) ∧
  (∀ (s : State) (inp : Inputs), s.mode.isTerminal = true → s.finish inp = s)

/-- JP nnn and JP V0,nnn set pc, reduced mod 4096, and change nothing else; an odd target is taken as it is
(40_control.md section 2; decisions D5, D6, log entries 9, 10). -/
def Obligations.JumpsSetPc : Prop :=
  (∀ (nnn : Addr) (s : State),
    ∃ t, exec (.jp nnn) s = .next t ∧ t.pc.toNat = nnn.toNat ∧ OnlyPc s t) ∧
  (∀ (nnn : Addr) (s : State),
    ∃ t, exec (.jpV0 nnn) s = .next t ∧ t.pc.toNat = ((s.getV 0).toNat + nnn.toNat) % 4096 ∧ OnlyPc s t)

/-- CALL with fewer than 16 addresses on the stack pushes pc (the address of the next instruction) and jumps
(40_control.md section 2; the SP convention is decision D13, log entry 13). -/
def Obligations.CallPushesAndJumps : Prop :=
  ∀ (nnn : Addr) (s : State), s.sp.toNat < 16 →
    ∃ t, exec (.call nnn) s = .next t ∧ t.pc.toNat = nnn.toNat ∧ t.sp.toNat = s.sp.toNat + 1 ∧
      (∀ j : Fin 16, t.stack[j] = if j.val = s.sp.toNat then s.pc else s.stack[j]) ∧
      SameRegs s t ∧ t.i = s.i ∧ SameMemory s t ∧ SameTimers s t ∧ SameScreen s t ∧ SameMode s t ∧
      SameOutside s t

/-- RET with 1 to 16 addresses on the stack returns to the topmost and leaves its slot as it was
(40_control.md section 2; decision D13, log entry 13). -/
def Obligations.RetPopsAndReturns : Prop :=
  ∀ (s : State) (j : Fin 16), s.sp.toNat = j.val + 1 →
    ∃ t, exec .ret s = .next t ∧ t.sp.toNat = j.val ∧ t.pc.toNat = (s.stack[j]).toNat % 4096 ∧
      t.stack = s.stack ∧ SameRegs s t ∧ t.i = s.i ∧ SameMemory s t ∧ SameTimers s t ∧
      SameScreen s t ∧ SameMode s t ∧ SameOutside s t

/-- CALL on a full stack and RET on an empty one are fatal: the mode keeps the kind, the instruction word and
its address (two below pc), tone goes off, and nothing else changes; and a step that fetches one of them there
ends in that mode, with the word fetched and the address it was fetched from, without a poll or a tick phase
(60_exceptions.md sections 1 and 3; decisions D14, D21, log entries 14, 18). -/
def Obligations.StackViolationsAreFatal : Prop :=
  (∀ (nnn : Addr) (s : State), s.sp = 16 →
    ∃ t a, exec (.call nnn) s = .next t ∧
      t.mode = .fatal .stackOverflow (BitVec.ofNat 16 (0x2000 + nnn.toNat)) a ∧
      a.toNat = (s.pc.toNat + 4096 - 2) % 4096 ∧ t.tone = false ∧ SameCore s t ∧ SameStack s t ∧
      SameTimers s t ∧ SameScreen s t ∧ SameOutside s t) ∧
  (∀ s : State, s.sp = 0 →
    ∃ t a, exec .ret s = .next t ∧ t.mode = .fatal .stackUnderflow 0x00EE a ∧
      a.toNat = (s.pc.toNat + 4096 - 2) % 4096 ∧ t.tone = false ∧ SameCore s t ∧ SameStack s t ∧
      SameTimers s t ∧ SameScreen s t ∧ SameOutside s t) ∧
  (∀ (nnn : Addr) (s : State), s.mode = .running → s.sp = 16 → decode s.fetchWord = .ok (.call nnn) →
    ∃ t a, step s = .next t ∧ t.mode = .fatal .stackOverflow s.fetchWord a ∧
      a.toNat = s.pc.toNat % 4096 ∧ EndsWithoutPollOrTick s t) ∧
  (∀ s : State, s.mode = .running → s.sp = 0 → decode s.fetchWord = .ok .ret →
    ∃ t a, step s = .next t ∧ t.mode = .fatal .stackUnderflow s.fetchWord a ∧
      a.toNat = s.pc.toNat % 4096 ∧ EndsWithoutPollOrTick s t)

/-- In a state with an SP above 16, which is no legal value (10_state.md section 3), CALL and RET fault by
name; this is the model's choice (log entry 13). -/
def Obligations.IllegalStackPointerFaults : Prop :=
  ∀ s : State, 16 < s.sp.toNat →
    exec .ret s = .fault (.stackPointerIllegal s.sp) ∧
    ∀ nnn, exec (.call nnn) s = .fault (.stackPointerIllegal s.sp)

/-! ### Skips (41_skip.md) -/

/-- Where pc stands after a skip instruction: 2 further when the condition holds. -/
def SkipPc (s t : State) (taken : Prop) : Prop :=
  (taken → t.pc.toNat = (s.pc.toNat + 2) % 4096) ∧ (¬ taken → t.pc = s.pc)

/-- SE Vx,kk (`3xkk`) skips when Vx equals kk, SNE Vx,kk (`4xkk`) when it does not; nothing but pc changes
(41_skip.md; the patterns are the spec's general knowledge, log entry 1). -/
def Obligations.ImmediateSkips : Prop :=
  (∀ (x : Reg) (kk : Byte),
    decode (BitVec.ofNat 16 (0x3000 + x.val * 0x100 + kk.toNat)) = .ok (.seImm x kk) ∧
    decode (BitVec.ofNat 16 (0x4000 + x.val * 0x100 + kk.toNat)) = .ok (.sneImm x kk)) ∧
  (∀ (x : Reg) (kk : Byte) (s : State),
    ∃ t, exec (.seImm x kk) s = .next t ∧ SkipPc s t (s.getV x = kk) ∧ OnlyPc s t) ∧
  (∀ (x : Reg) (kk : Byte) (s : State),
    ∃ t, exec (.sneImm x kk) s = .next t ∧ SkipPc s t (s.getV x ≠ kk) ∧ OnlyPc s t)

/-- SE Vx,Vy (`5xy0`) skips when the registers are equal, SNE Vx,Vy (`9xy0`) when they differ; nothing but pc
changes. `5xyN` and `9xyN` with N not 0 are unrecognised (41_skip.md; the patterns are the spec's general
knowledge, log entry 1, and the strict decoding its decision D11). -/
def Obligations.RegisterSkips : Prop :=
  (∀ x y : Reg,
    decode (BitVec.ofNat 16 (0x5000 + x.val * 0x100 + y.val * 0x10)) = .ok (.seReg x y) ∧
    decode (BitVec.ofNat 16 (0x9000 + x.val * 0x100 + y.val * 0x10)) = .ok (.sneReg x y)) ∧
  (∀ (x y n : Fin 16), n ≠ 0 →
    decode (BitVec.ofNat 16 (0x5000 + x.val * 0x100 + y.val * 0x10 + n.val)) = .error .group5 ∧
    decode (BitVec.ofNat 16 (0x9000 + x.val * 0x100 + y.val * 0x10 + n.val)) = .error .group9) ∧
  (∀ (x y : Reg) (s : State),
    ∃ t, exec (.seReg x y) s = .next t ∧ SkipPc s t (s.getV x = s.getV y) ∧ OnlyPc s t) ∧
  (∀ (x y : Reg) (s : State),
    ∃ t, exec (.sneReg x y) s = .next t ∧ SkipPc s t (s.getV x ≠ s.getV y) ∧ OnlyPc s t)

/-! ### Register loads, arithmetic, logic, shifts, random (42_alu.md) -/

/-- LD Vx,kk (`6xkk`): Vx becomes kk; VF changes only when it is Vx, and nothing else changes. -/
def Obligations.LoadImmediate : Prop :=
  (∀ (x : Reg) (kk : Byte),
    decode (BitVec.ofNat 16 (0x6000 + x.val * 0x100 + kk.toNat)) = .ok (.ldImm x kk)) ∧
  decode 0x600A = .ok (.ldImm 0 0x0A) ∧ decode 0x6105 = .ok (.ldImm 1 0x05) ∧
  ∀ (x : Reg) (kk : Byte) (s : State),
    ∃ t, exec (.ldImm x kk) s = .next t ∧ t.getV x = kk ∧ OnlyRegs (· = x) s t

/-- ADD Vx,kk adds modulo 256 and writes no flag; LD, OR, AND, XOR Vx,Vy are the copy and the bitwise
operations, with no flag (42_alu.md section 2; the patterns `7xkk`, `8xy0` to `8xy3` are the spec's general
knowledge, log entry 1). -/
def Obligations.AddImmediateCopyAndLogic : Prop :=
  (∀ (x : Reg) (kk : Byte),
    decode (BitVec.ofNat 16 (0x7000 + x.val * 0x100 + kk.toNat)) = .ok (.addImm x kk)) ∧
  (∀ x y : Reg,
    decode (BitVec.ofNat 16 (0x8000 + x.val * 0x100 + y.val * 0x10)) = .ok (.ldReg x y) ∧
    decode (BitVec.ofNat 16 (0x8001 + x.val * 0x100 + y.val * 0x10)) = .ok (.orReg x y) ∧
    decode (BitVec.ofNat 16 (0x8002 + x.val * 0x100 + y.val * 0x10)) = .ok (.andReg x y) ∧
    decode (BitVec.ofNat 16 (0x8003 + x.val * 0x100 + y.val * 0x10)) = .ok (.xorReg x y)) ∧
  (∀ (x : Reg) (kk : Byte) (s : State), ∃ t, exec (.addImm x kk) s = .next t ∧
    (t.getV x).toNat = ((s.getV x).toNat + kk.toNat) % 256 ∧ OnlyRegs (· = x) s t) ∧
  (∀ (x y : Reg) (s : State),
    ∃ t, exec (.ldReg x y) s = .next t ∧ t.getV x = s.getV y ∧ OnlyRegs (· = x) s t) ∧
  (∀ (x y : Reg) (s : State), ∃ t, exec (.orReg x y) s = .next t ∧
    (∀ b, (t.getV x).getLsbD b = ((s.getV x).getLsbD b || (s.getV y).getLsbD b)) ∧
    OnlyRegs (· = x) s t) ∧
  (∀ (x y : Reg) (s : State), ∃ t, exec (.andReg x y) s = .next t ∧
    (∀ b, (t.getV x).getLsbD b = ((s.getV x).getLsbD b && (s.getV y).getLsbD b)) ∧
    OnlyRegs (· = x) s t) ∧
  (∀ (x y : Reg) (s : State), ∃ t, exec (.xorReg x y) s = .next t ∧
    (∀ b, (t.getV x).getLsbD b = ((s.getV x).getLsbD b != (s.getV y).getLsbD b)) ∧
    OnlyRegs (· = x) s t)

/-- A result and its flag: VF ends as the flag, and the destination as the result unless it is VF itself
(the flag write is the last: decision D7, log entry 11). -/
def ResultAndFlag (x : Reg) (s t : State) (result : Nat) (flag : Prop) : Prop :=
  (x ≠ VF → (t.getV x).toNat = result) ∧ (flag → t.getV VF = 1) ∧ (¬ flag → t.getV VF = 0) ∧
    OnlyRegs (fun r => r = x ∨ r = VF) s t

/-- ADD Vx,Vy: the sum modulo 256, VF the carry (42_alu.md sections 1 and 2, property W4). -/
def Obligations.AddWithCarry : Prop :=
  ∀ (x y : Reg) (s : State), ∃ t, exec (.addReg x y) s = .next t ∧
    ResultAndFlag x s t (((s.getV x).toNat + (s.getV y).toNat) % 256)
      ((s.getV x).toNat + (s.getV y).toNat > 255)

/-- The difference modulo 256 as a number: `a - b + 256` where a is below b (42_alu.md section 1). -/
def Difference (a b : Byte) : Nat := if b.toNat ≤ a.toNat then a.toNat - b.toNat else a.toNat + 256 - b.toNat

/-- SUB Vx,Vy and SUBN Vx,Vy: the difference modulo 256, VF the NOT-borrow (42_alu.md sections 1 and 2,
property W5). -/
def Obligations.SubtractBothWays : Prop :=
  (∀ (x y : Reg) (s : State), ∃ t, exec (.sub x y) s = .next t ∧
    ResultAndFlag x s t (Difference (s.getV x) (s.getV y)) ((s.getV y).toNat ≤ (s.getV x).toNat)) ∧
  (∀ (x y : Reg) (s : State), ∃ t, exec (.subn x y) s = .next t ∧
    ResultAndFlag x s t (Difference (s.getV y) (s.getV x)) ((s.getV x).toNat ≤ (s.getV y).toNat))

/-- SHR Vx,Vy and SHL Vx,Vy shift Vy, not Vx, by one bit; VF is the bit shifted out of the old Vy (42_alu.md
section 2). -/
def Obligations.ShiftsTakeVy : Prop :=
  (∀ (x y : Reg) (s : State), ∃ t, exec (.shr x y) s = .next t ∧
    ResultAndFlag x s t ((s.getV y).toNat / 2) ((s.getV y).getLsbD 0 = true)) ∧
  (∀ (x y : Reg) (s : State), ∃ t, exec (.shl x y) s = .next t ∧
    ResultAndFlag x s t ((s.getV y).toNat * 2 % 256) ((s.getV y).getLsbD 7 = true))

/-- RND Vx,kk leaves the byte on the random port where kk has a 1 and 0 elsewhere, for every byte the port can
hold; and a step that fetches it uses the free value of its own iteration (42_alu.md section 2; decision
D15, log entries 7, 8). -/
def Obligations.RndMasksTheDraw : Prop :=
  (∀ (x : Reg) (kk : Byte) (s : State), ∃ t, exec (.rnd x kk) s = .next t ∧
    (∀ b, (t.getV x).getLsbD b = (s.rnd.getLsbD b && kk.getLsbD b)) ∧ OnlyRegs (· = x) s t) ∧
  (∀ (x : Reg) (kk : Byte) (s : State), s.mode = .running → decode s.fetchWord = .ok (.rnd x kk) →
    ∃ t, step s = .next t ∧ t.getV x = Config.rnd s.iteration &&& kk)

/-! ### Index register and memory (43_index_memory.md, 20_memory.md) -/

/-- LD I,nnn (`Annn`): I becomes nnn, nothing else changes. -/
def Obligations.LoadIndex : Prop :=
  (∀ nnn : Addr, decode (BitVec.ofNat 16 (0xA000 + nnn.toNat)) = .ok (.ldI nnn)) ∧
  ∀ (nnn : Addr) (s : State), ∃ t, exec (.ldI nnn) s = .next t ∧ t.i.toNat = nnn.toNat ∧ OnlyI s t

/-- ADD I,Vx adds modulo 65536 with no flag and no masking to 4096; LD F,Vx makes I five times the whole of Vx
(decisions D8, D31, log entries 12, 22). -/
def Obligations.AddIndexAndGlyph : Prop :=
  (∀ (x : Reg) (s : State), ∃ t, exec (.addI x) s = .next t ∧
    t.i.toNat = (s.i.toNat + (s.getV x).toNat) % 65536 ∧ OnlyI s t) ∧
  (∀ (x : Reg) (s : State), ∃ t, exec (.ldF x) s = .next t ∧
    t.i.toNat = 5 * (s.getV x).toNat ∧ OnlyI s t)

/-- LD B,Vx (`Fx33`): the decimal digits of Vx go to the bytes at I, I+1, I+2, each address reduced mod 4096;
every other byte and everything else stays (43_index_memory.md; the pattern is the spec's general knowledge,
log entry 1). -/
def Obligations.StoreDecimalDigits : Prop :=
  (∀ x : Reg, decode (BitVec.ofNat 16 (0xF033 + x.val * 0x100)) = .ok (.ldB x)) ∧
  ∀ (x : Reg) (s : State), ∃ t, exec (.ldB x) s = .next t ∧
    (t.readByte s.i.toNat).toNat = (s.getV x).toNat / 100 ∧
    (t.readByte (s.i.toNat + 1)).toNat = (s.getV x).toNat / 10 % 10 ∧
    (t.readByte (s.i.toNat + 2)).toNat = (s.getV x).toNat % 10 ∧
    (∀ a, (∀ j < 3, maskAddr a ≠ maskAddr (s.i.toNat + j)) → t.readByte a = s.readByte a) ∧
    SameRegs s t ∧ t.i = s.i ∧ t.pc = s.pc ∧ SameRest s t

/-- What a block transfer leaves in I under either policy (decision D9, log entry 3). -/
def BlockLeavesI (x : Reg) (s t : State) : Prop :=
  (s.cfg.blockI = .unchanged → t.i = s.i) ∧
    (s.cfg.blockI = .increment → t.i.toNat = (s.i.toNat + x.val + 1) % 65536)

/-- LD [I],Vx: registers 0 to x go to the bytes from I on, each address reduced mod 4096; every other byte,
every register and everything else stays, and I as the policy says (43_index_memory.md). -/
def Obligations.StoreRegisterBlock : Prop :=
  ∀ (x : Reg) (s : State), ∃ t, exec (.storeRegs x) s = .next t ∧
    (∀ r : Reg, r.val ≤ x.val → t.readByte (s.i.toNat + r.val) = s.getV r) ∧
    (∀ a, (∀ j ≤ x.val, maskAddr a ≠ maskAddr (s.i.toNat + j)) → t.readByte a = s.readByte a) ∧
    SameRegs s t ∧ t.pc = s.pc ∧ BlockLeavesI x s t ∧ SameRest s t

/-- LD Vx,[I]: registers 0 to x take the bytes from I on; every other register, memory and everything else
stays, and I as the policy says (43_index_memory.md). -/
def Obligations.LoadRegisterBlock : Prop :=
  ∀ (x : Reg) (s : State), ∃ t, exec (.loadRegs x) s = .next t ∧
    (∀ r : Reg, r.val ≤ x.val → t.getV r = s.readByte (s.i.toNat + r.val)) ∧
    SameRegsBut (fun r => r.val ≤ x.val) s t ∧ t.pc = s.pc ∧ BlockLeavesI x s t ∧ SameMemory s t ∧
    SameRest s t

/-- Block round trip: after LD [I],Vx, whatever happens to the registers, LD Vx,[I] from the same I and the
same memory restores registers 0 to x (95_test_vectors.md W8, 43_index_memory.md). -/
def Obligations.BlockRoundTrip : Prop :=
  ∀ (x : Reg) (s t u : State), exec (.storeRegs x) s = .next t → SameMemory t u → u.i = s.i →
    ∃ v, exec (.loadRegs x) u = .next v ∧ ∀ r : Reg, r.val ≤ x.val → v.getV r = s.getV r

/-- A store is seen by the next fetch: when LD [I],Vx with x at least 1 stores where pc points, the word that
is fetched next is V0 (high byte) and V1 (low byte) (20_memory.md sections 3 and 8; decision D29). -/
def Obligations.StoreIsSeenByTheNextFetch : Prop :=
  ∀ (x : Reg) (s t : State), 1 ≤ x.val → maskAddr s.i.toNat = maskAddr s.pc.toNat →
    exec (.storeRegs x) s = .next t →
    t.fetchWord.toNat = (s.getV 0).toNat * 256 + (s.getV 1).toNat

/-- The bus word write and word read are big-endian inverses at every address and parity, wrapping past
0xFFF, and the write leaves every other byte (20_memory.md section 2; decisions D34, D41, log entry 20). -/
def Obligations.WordWriteThenRead : Prop :=
  ∀ (s : State) (a : Nat) (w : Word),
    (s.writeWord a w).readWord a = w ∧ ((s.writeWord a w).readByte a).toNat = w.toNat / 256 ∧
    ((s.writeWord a w).readByte (a + 1)).toNat = w.toNat % 256 ∧
    ∀ c, maskAddr c ≠ maskAddr a → maskAddr c ≠ maskAddr (a + 1) →
      (s.writeWord a w).readByte c = s.readByte c

/-! ### Drawing (44_draw.md) -/

/-- CLS clears all 2048 pixels, sends one frame and changes nothing else, VF included (44_draw.md; decision
D23). -/
def Obligations.ClsClearsTheScreen : Prop :=
  ∀ s : State, ∃ t, exec .cls s = .next t ∧
    (∀ r c, FrameBuffer.pixel t.fb r c = false) ∧ t.frames = s.frames ++ [t.fb] ∧ SameCore s t ∧
    SameStack s t ∧ SameTimers s t ∧ SameMode s t ∧ SameOutside s t

/-- Whether the sprite of DRW Vx,Vy,n has a set bit on pixel (r, c): the row offset is counted from Vy mod 32
with wrap, the column offset from Vx mod 64 with wrap, bit 7 of a sprite byte leftmost. -/
def SpriteHits (s : State) (x y : Reg) (n : Nibble) (r c : Nat) : Bool :=
  let dr := (r + 32 - (s.getV y).toNat % 32) % 32
  let dc := (c + 64 - (s.getV x).toNat % 64) % 64
  decide (dr < n.toNat) && decide (dc < 8) && (s.readByte (s.i.toNat + dr)).getLsbD (7 - dc)

/-- DRW pixel by pixel: every pixel is XORed with the sprite bit on it, VF is 1 exactly when some set pixel was
hit, one frame is sent, and nothing else changes (44_draw.md; decisions D7, D23). -/
def Obligations.DrwXorsTheSprite : Prop :=
  ∀ (x y : Reg) (n : Nibble) (s : State), ∃ t, exec (.drw x y n) s = .next t ∧
    (∀ r < 32, ∀ c < 64,
      FrameBuffer.pixel t.fb r c = (FrameBuffer.pixel s.fb r c != SpriteHits s x y n r c)) ∧
    ((∃ r < 32, ∃ c < 64, FrameBuffer.pixel s.fb r c = true ∧ SpriteHits s x y n r c = true) →
      t.getV VF = 1) ∧
    ((∀ r < 32, ∀ c < 64, FrameBuffer.pixel s.fb r c = true → SpriteHits s x y n r c = false) →
      t.getV VF = 0) ∧
    t.frames = s.frames ++ [t.fb] ∧ SameRegsBut (· = VF) s t ∧ t.i = s.i ∧ t.pc = s.pc ∧
    SameMemory s t ∧ SameStack s t ∧ SameTimers s t ∧ SameMode s t ∧ SameOutside s t

/-- Draw-twice law: a second DRW at the same coordinates restores the framebuffer, and it collides exactly when
the sprite has a set bit on a pixel that was clear before the first (44_draw.md; the collision half follows
the compositor's definition, see log entry 32). -/
def Obligations.DrawTwiceRestores : Prop :=
  ∀ (x y : Reg) (n : Nibble) (s t : State), exec (.drw x y n) s = .next t →
    t.getV x = s.getV x → t.getV y = s.getV y →
    ∃ u, exec (.drw x y n) t = .next u ∧ u.fb = s.fb ∧
      (u.getV VF = 1 ↔
        ∃ r < 32, ∃ c < 64, FrameBuffer.pixel s.fb r c = false ∧ SpriteHits s x y n r c = true)

/-- The spec's own inference about the second draw ("VF = 1 iff at least one of the n sprite bytes is
nonzero"), read for every framebuffer: it FAILS, because a sprite whose set bits all lie on set pixels erases
first and sets again (44_draw.md, draw-twice law, against the compositor's definition; log entry 32). -/
def Obligations.SecondDrawCollidesIffSpriteNotBlank : Prop :=
  ∀ (x y : Reg) (n : Nibble) (s t u : State), exec (.drw x y n) s = .next t →
    t.getV x = s.getV x → t.getV y = s.getV y → exec (.drw x y n) t = .next u →
    (u.getV VF = 1 ↔ ∃ j < n.toNat, s.readByte (s.i.toNat + j) ≠ 0)

/-! ### Keys and timers (45_keys_timers.md, 60_exceptions.md) -/

/-- SKP and SKNP test the key Vx mod 16 under the mask policy (45_keys_timers.md; decision D10, log
entry 3). -/
def Obligations.KeySkipsUnderMask : Prop :=
  ∀ (x : Reg) (s : State) (k : Key), s.cfg.keyIndex = .mask → k.val = (s.getV x).toNat % 16 →
    (∃ t, exec (.skp x) s = .next t ∧ SkipPc s t (s.getKey k = true) ∧ OnlyPc s t) ∧
    (∃ t, exec (.sknp x) s = .next t ∧ SkipPc s t (s.getKey k = false) ∧ OnlyPc s t)

/-- Under the fault policy a key number below 16 is tested as it is, and one of 16 or more is a model fault
(45_keys_timers.md; decision D10, log entries 3, 28). -/
def Obligations.KeySkipsUnderFaultPolicy : Prop :=
  ∀ (x : Reg) (s : State), s.cfg.keyIndex = .fault →
    (∀ k : Key, k.val = (s.getV x).toNat →
      (∃ t, exec (.skp x) s = .next t ∧ SkipPc s t (s.getKey k = true) ∧ OnlyPc s t) ∧
      (∃ t, exec (.sknp x) s = .next t ∧ SkipPc s t (s.getKey k = false) ∧ OnlyPc s t)) ∧
    (16 ≤ (s.getV x).toNat →
      exec (.skp x) s = .fault (.keyIndexOutOfRange (s.getV x)) ∧
      exec (.sknp x) s = .fault (.keyIndexOutOfRange (s.getV x)))

/-- LD Vx,DT reads the delay timer; LD DT,Vx and LD ST,Vx write their timers; nothing else changes
(10_state.md section 4, 45_keys_timers.md). The tick phase takes the whole ticks elapsed off the delay timer,
saturating at 0: with `k` whole sixtieths in the time since the last tick, DT goes down by `k`
(60_exceptions.md section 4; the exact accumulator is decision D17, log entry 24). -/
def Obligations.TimerTransfersAndDecay : Prop :=
  (∀ (x : Reg) (s : State),
    ∃ t, exec (.ldVxDT x) s = .next t ∧ t.getV x = s.dt ∧ OnlyRegs (· = x) s t) ∧
  (∀ (x : Reg) (s : State), ∃ t, exec (.ldDTVx x) s = .next t ∧ t.dt = s.getV x ∧ t.st = s.st ∧
    SameCore s t ∧ SameStack s t ∧ SameScreen s t ∧ SameMode s t ∧ SameOutside s t) ∧
  (∀ (x : Reg) (s : State), ∃ t, exec (.ldSTVx x) s = .next t ∧ t.st = s.getV x ∧ t.dt = s.dt ∧
    SameCore s t ∧ SameStack s t ∧ SameScreen s t ∧ SameMode s t ∧ SameOutside s t) ∧
  (∀ (s : State) (elapsed : ℚ≥0) (k : Nat),
    (k : Rat) / 60 ≤ s.acc + (elapsed : Rat) → s.acc + (elapsed : Rat) < ((k : Rat) + 1) / 60 →
    (s.timerTick elapsed).dt.toNat = s.dt.toNat - k)

/-- LD Vx,K suspends the loop on x and changes nothing else: Vx is written only when a key comes
(45_keys_timers.md; decision D40). -/
def Obligations.KeyWaitSuspends : Prop :=
  ∀ (x : Reg) (s : State), ∃ t, exec (.ldVxK x) s = .next t ∧ t.mode = .suspended x ∧
    t.tone = s.tone ∧ SameCore s t ∧ SameStack s t ∧ SameTimers s t ∧ SameScreen s t ∧ SameOutside s t

/-- The wait ends at the first key-down: key-ups before it do not end it, key-downs after it only touch the
key table (60_exceptions.md section 6; decision D19, log entry 18). -/
def Obligations.KeyWaitEndsAtTheFirstKeyDown : Prop :=
  ∀ (s : State) (x : Reg) (before : List InputEvent), s.mode = .suspended x →
    (∀ e ∈ before, ∃ k, e = .keyUp k) →
    ((s.poll before).mode = .suspended x ∧ SameRegs s (s.poll before)) ∧
    ∀ (k : Key) (after : List InputEvent), .quit ∉ after →
      (s.poll (before ++ .keyDown k :: after)).mode = .running ∧
      ((s.poll (before ++ .keyDown k :: after)).getV x).toNat = k.val ∧
      SameRegsBut (· = x) s (s.poll (before ++ .keyDown k :: after))

/-- The state of a key after some events: that of the last event about it, or the old one. -/
def keyAfter (k : Key) (old : Bool) (es : List InputEvent) : Bool :=
  es.foldl (fun b e =>
    match e with
    | .keyDown j => if j = k then true else b
    | .keyUp j   => if j = k then false else b
    | .quit      => b) old

/-- The key table follows the events of a poll phase, in every mode (60_exceptions.md section 6; decision
D35). -/
def Obligations.KeyTableFollowsTheEvents : Prop :=
  ∀ (s : State) (es : List InputEvent) (k : Key), .quit ∉ es →
    (s.poll es).getKey k = keyAfter k (s.getKey k) es

/-- Quit halts as Halted(Quit), in Running and in a key wait: the events before it are applied, those after it
are discarded, no tick happens, and tone is off (60_exceptions.md sections 2 and 3; decision D20, log
entry 18). -/
def Obligations.QuitEndsTheIteration : Prop :=
  ∀ (s : State) (inp : Inputs) (before after : List InputEvent), s.mode.isTerminal = false →
    .quit ∉ before → inp.events = before ++ .quit :: after →
    (s.finish inp).mode = .halted .quit ∧ (s.finish inp).tone = false ∧
    (∀ k, (s.finish inp).getKey k = keyAfter k (s.getKey k) before) ∧
    (s.finish inp).v = (s.poll before).v ∧ SameTimers s (s.finish inp) ∧ (s.finish inp).acc = s.acc

/-- Ticks do not drift: over any sequence of tick phases the number of ticks taken off both timers, saturating
at 0, is the whole number of sixtieths in all the time passed since the last tick, and the accumulator keeps
the rest; nothing else changes (60_exceptions.md section 4; decisions D16, D17, D36, log entry 24). -/
def Obligations.TicksDoNotDrift : Prop :=
  ∀ (s : State) (times : List ℚ≥0), 0 ≤ s.acc → s.acc < 1 / 60 →
    ∃ (k : Nat) (t : State), times.foldl State.timerTick s = t ∧
      (k : Rat) / 60 ≤ s.acc + (times.sum : ℚ≥0) ∧ s.acc + (times.sum : ℚ≥0) < ((k : Rat) + 1) / 60 ∧
      t.acc = s.acc + (times.sum : ℚ≥0) - (k : Rat) / 60 ∧
      t.dt.toNat = s.dt.toNat - k ∧ t.st.toNat = s.st.toNat - k ∧
      SameCore s t ∧ SameStack s t ∧ SameScreen s t ∧ SameMode s t ∧ t.key = s.key ∧
      t.diag = s.diag ∧ t.rnd = s.rnd ∧ t.iteration = s.iteration ∧ t.cfg = s.cfg

/-- An iteration in which the key wait on x is on when its events are polled: it starts in the wait, or its own
instruction is LD Vx,K. -/
def WaitsForKey (s : State) (x : Reg) : Prop :=
  s.mode = .suspended x ∨ (s.mode = .running ∧ decode s.fetchWord = .ok (.ldVxK x))

/-- Both timers and the accumulator are as the tick phase of this length leaves them. -/
def Ticked (s t : State) (elapsed : ℚ≥0) : Prop :=
  t.dt = (s.timerTick elapsed).dt ∧ t.st = (s.timerTick elapsed).st ∧ t.acc = (s.timerTick elapsed).acc

/-- Timers during the key wait, in an iteration that starts in the wait and in the iteration of LD Vx,K itself.
Where only key-ups are polled it ends in Suspended, and leaves both timers and the accumulator under `freeze`
and ticks like any other under `continue`. Where a key-down completes the wait it ends in Running with the key
number in Vx, and ticks under both (60_exceptions.md sections 3, 4 and 6; decisions D18, D19, D40, log
entries 3, 18). -/
def Obligations.TimersDuringTheKeyWait : Prop :=
  ∀ (s : State) (x : Reg) (inp : Inputs), WaitsForKey s x →
    ((∀ e ∈ inp.events, ∃ k, e = .keyUp k) →
      ∃ t, iterate inp s = .next t ∧ t.mode = .suspended x ∧
        (s.cfg.timersDuringWait = .freeze → SameTimers s t ∧ t.acc = s.acc) ∧
        (s.cfg.timersDuringWait = .keepRunning → Ticked s t inp.elapsed)) ∧
    (∀ (before after : List InputEvent) (k : Key), (∀ e ∈ before, ∃ j, e = .keyUp j) → .quit ∉ after →
      inp.events = before ++ .keyDown k :: after →
      ∃ t, iterate inp s = .next t ∧ t.mode = .running ∧ (t.getV x).toNat = k.val ∧
        Ticked s t inp.elapsed)

/-- A value written by LD DT,Vx is decremented by the tick phase of the same iteration, which is the spec's own
inference from the order of the phases (60_exceptions.md section 4, 70_reset_and_hazards.md section 3). How
many ticks land in that one iteration rests on the exact accumulator (decision D17, log entry 24) and on the
iteration as decided (log entry 18). -/
def Obligations.LoadedTimerTicksInTheSameIteration : Prop :=
  ∀ (s : State) (x : Reg) (inp : Inputs) (k : Nat), s.mode = .running →
    decode s.fetchWord = .ok (.ldDTVx x) → inp.events = [] → 0 ≤ s.acc →
    (k : Rat) / 60 ≤ s.acc + (inp.elapsed : Rat) → s.acc + (inp.elapsed : Rat) < ((k : Rat) + 1) / 60 →
    ∃ t, iterate inp s = .next t ∧ t.dt.toNat = (s.getV x).toNat - k

/-! ### Reset and boot (70_reset_and_hazards.md) -/

/-- What boot leaves: the loader takes images of at most 3584 bytes; the font lies at 0, the image at 512 and
zeros elsewhere; every register, timer, key, pixel and stack entry is zero, pc is 0x200, the mode is Running
and the ports are empty. With the default parameters and an empty image this is the reset state (the values
are the spec's decisions D1 to D4, D24, D25, log entries 2 to 6, 17). -/
def Obligations.BootLeavesTheResetValues : Prop :=
  State.boot defaultConfig [] = some State.reset ∧
  ∀ (cfg : Config) (image : List Byte),
    (State.boot cfg image = none ↔ 3584 < image.length) ∧
    ∀ s, State.boot cfg image = some s →
      (∀ j : Fin 80, s.readByte j.val = cfg.font[j]) ∧
      (∀ j : Fin image.length, s.readByte (512 + j.val) = image[j]) ∧
      (∀ a, (80 ≤ a ∧ a < 512 ∨ 512 + image.length ≤ a ∧ a < 4096) → s.readByte a = 0) ∧
      (∀ r, s.getV r = 0) ∧ s.i = 0 ∧ s.pc = 0x200 ∧ s.sp = 0 ∧ (∀ j : Fin 16, s.stack[j] = 0) ∧
      s.dt = 0 ∧ s.st = 0 ∧ (∀ r c, FrameBuffer.pixel s.fb r c = false) ∧
      (∀ k, s.getKey k = false) ∧ s.acc = 0 ∧ s.mode = .running ∧ s.tone = false ∧ s.frames = [] ∧
      s.diag = [] ∧ s.cfg = cfg
end

