-- ==== Sys2Proof/Laws/State.lean ====
section
/-! SUPPORT. What each update of the state leaves in each field: one lemma per field per update, so that no
later proof unfolds a record update. `getV`, `getKey` and `readByte` count as fields where the update does
not write what they read. -/

namespace Sys2Proof.Machine

variable (s : State)


/-! ### `V[x] <- b` -/

@[simp] theorem State.setV_v (x : Reg) (b : Byte) : (s.setV x b).v = s.v.set x.val b x.isLt := rfl
@[simp] theorem State.setV_i (x : Reg) (b : Byte) : (s.setV x b).i = s.i := rfl
@[simp] theorem State.setV_pc (x : Reg) (b : Byte) : (s.setV x b).pc = s.pc := rfl
@[simp] theorem State.setV_sp (x : Reg) (b : Byte) : (s.setV x b).sp = s.sp := rfl
@[simp] theorem State.setV_stack (x : Reg) (b : Byte) : (s.setV x b).stack = s.stack := rfl
@[simp] theorem State.setV_dt (x : Reg) (b : Byte) : (s.setV x b).dt = s.dt := rfl
@[simp] theorem State.setV_st (x : Reg) (b : Byte) : (s.setV x b).st = s.st := rfl
@[simp] theorem State.setV_mem (x : Reg) (b : Byte) : (s.setV x b).mem = s.mem := rfl
@[simp] theorem State.setV_fb (x : Reg) (b : Byte) : (s.setV x b).fb = s.fb := rfl
@[simp] theorem State.setV_key (x : Reg) (b : Byte) : (s.setV x b).key = s.key := rfl
@[simp] theorem State.setV_acc (x : Reg) (b : Byte) : (s.setV x b).acc = s.acc := rfl
@[simp] theorem State.setV_mode (x : Reg) (b : Byte) : (s.setV x b).mode = s.mode := rfl
@[simp] theorem State.setV_tone (x : Reg) (b : Byte) : (s.setV x b).tone = s.tone := rfl
@[simp] theorem State.setV_frames (x : Reg) (b : Byte) : (s.setV x b).frames = s.frames := rfl
@[simp] theorem State.setV_diag (x : Reg) (b : Byte) : (s.setV x b).diag = s.diag := rfl
@[simp] theorem State.setV_rnd (x : Reg) (b : Byte) : (s.setV x b).rnd = s.rnd := rfl
@[simp] theorem State.setV_iteration (x : Reg) (b : Byte) : (s.setV x b).iteration = s.iteration := rfl
@[simp] theorem State.setV_cfg (x : Reg) (b : Byte) : (s.setV x b).cfg = s.cfg := rfl
@[simp] theorem State.setV_getKey (x : Reg) (b : Byte) (j : Key) : (s.setV x b).getKey j = s.getKey j := rfl
@[simp] theorem State.setV_readByte (x : Reg) (b : Byte) (n : Nat) :
    (s.setV x b).readByte n = s.readByte n := rfl

/-! ### `I <- a` -/

@[simp] theorem State.setI_v (a : Nat) : (s.setI a).v = s.v := rfl
@[simp] theorem State.setI_i (a : Nat) : (s.setI a).i = BitVec.ofNat 16 a := rfl
@[simp] theorem State.setI_pc (a : Nat) : (s.setI a).pc = s.pc := rfl
@[simp] theorem State.setI_sp (a : Nat) : (s.setI a).sp = s.sp := rfl
@[simp] theorem State.setI_stack (a : Nat) : (s.setI a).stack = s.stack := rfl
@[simp] theorem State.setI_dt (a : Nat) : (s.setI a).dt = s.dt := rfl
@[simp] theorem State.setI_st (a : Nat) : (s.setI a).st = s.st := rfl
@[simp] theorem State.setI_mem (a : Nat) : (s.setI a).mem = s.mem := rfl
@[simp] theorem State.setI_fb (a : Nat) : (s.setI a).fb = s.fb := rfl
@[simp] theorem State.setI_key (a : Nat) : (s.setI a).key = s.key := rfl
@[simp] theorem State.setI_acc (a : Nat) : (s.setI a).acc = s.acc := rfl
@[simp] theorem State.setI_mode (a : Nat) : (s.setI a).mode = s.mode := rfl
@[simp] theorem State.setI_tone (a : Nat) : (s.setI a).tone = s.tone := rfl
@[simp] theorem State.setI_frames (a : Nat) : (s.setI a).frames = s.frames := rfl
@[simp] theorem State.setI_diag (a : Nat) : (s.setI a).diag = s.diag := rfl
@[simp] theorem State.setI_rnd (a : Nat) : (s.setI a).rnd = s.rnd := rfl
@[simp] theorem State.setI_iteration (a : Nat) : (s.setI a).iteration = s.iteration := rfl
@[simp] theorem State.setI_cfg (a : Nat) : (s.setI a).cfg = s.cfg := rfl
@[simp] theorem State.setI_getV (a : Nat) (r : Reg) : (s.setI a).getV r = s.getV r := rfl
@[simp] theorem State.setI_getKey (a : Nat) (j : Key) : (s.setI a).getKey j = s.getKey j := rfl
@[simp] theorem State.setI_readByte (a : Nat) (n : Nat) : (s.setI a).readByte n = s.readByte n := rfl

/-! ### `DT <- b` -/

@[simp] theorem State.setDT_v (b : Byte) : (s.setDT b).v = s.v := rfl
@[simp] theorem State.setDT_i (b : Byte) : (s.setDT b).i = s.i := rfl
@[simp] theorem State.setDT_pc (b : Byte) : (s.setDT b).pc = s.pc := rfl
@[simp] theorem State.setDT_sp (b : Byte) : (s.setDT b).sp = s.sp := rfl
@[simp] theorem State.setDT_stack (b : Byte) : (s.setDT b).stack = s.stack := rfl
@[simp] theorem State.setDT_dt (b : Byte) : (s.setDT b).dt = b := rfl
@[simp] theorem State.setDT_st (b : Byte) : (s.setDT b).st = s.st := rfl
@[simp] theorem State.setDT_mem (b : Byte) : (s.setDT b).mem = s.mem := rfl
@[simp] theorem State.setDT_fb (b : Byte) : (s.setDT b).fb = s.fb := rfl
@[simp] theorem State.setDT_key (b : Byte) : (s.setDT b).key = s.key := rfl
@[simp] theorem State.setDT_acc (b : Byte) : (s.setDT b).acc = s.acc := rfl
@[simp] theorem State.setDT_mode (b : Byte) : (s.setDT b).mode = s.mode := rfl
@[simp] theorem State.setDT_tone (b : Byte) : (s.setDT b).tone = s.tone := rfl
@[simp] theorem State.setDT_frames (b : Byte) : (s.setDT b).frames = s.frames := rfl
@[simp] theorem State.setDT_diag (b : Byte) : (s.setDT b).diag = s.diag := rfl
@[simp] theorem State.setDT_rnd (b : Byte) : (s.setDT b).rnd = s.rnd := rfl
@[simp] theorem State.setDT_iteration (b : Byte) : (s.setDT b).iteration = s.iteration := rfl
@[simp] theorem State.setDT_cfg (b : Byte) : (s.setDT b).cfg = s.cfg := rfl
@[simp] theorem State.setDT_getV (b : Byte) (r : Reg) : (s.setDT b).getV r = s.getV r := rfl
@[simp] theorem State.setDT_getKey (b : Byte) (j : Key) : (s.setDT b).getKey j = s.getKey j := rfl
@[simp] theorem State.setDT_readByte (b : Byte) (n : Nat) : (s.setDT b).readByte n = s.readByte n := rfl

/-! ### `ST <- b` -/

@[simp] theorem State.setST_v (b : Byte) : (s.setST b).v = s.v := rfl
@[simp] theorem State.setST_i (b : Byte) : (s.setST b).i = s.i := rfl
@[simp] theorem State.setST_pc (b : Byte) : (s.setST b).pc = s.pc := rfl
@[simp] theorem State.setST_sp (b : Byte) : (s.setST b).sp = s.sp := rfl
@[simp] theorem State.setST_stack (b : Byte) : (s.setST b).stack = s.stack := rfl
@[simp] theorem State.setST_dt (b : Byte) : (s.setST b).dt = s.dt := rfl
@[simp] theorem State.setST_st (b : Byte) : (s.setST b).st = b := rfl
@[simp] theorem State.setST_mem (b : Byte) : (s.setST b).mem = s.mem := rfl
@[simp] theorem State.setST_fb (b : Byte) : (s.setST b).fb = s.fb := rfl
@[simp] theorem State.setST_key (b : Byte) : (s.setST b).key = s.key := rfl
@[simp] theorem State.setST_acc (b : Byte) : (s.setST b).acc = s.acc := rfl
@[simp] theorem State.setST_mode (b : Byte) : (s.setST b).mode = s.mode := rfl
@[simp] theorem State.setST_tone (b : Byte) : (s.setST b).tone = s.tone := rfl
@[simp] theorem State.setST_frames (b : Byte) : (s.setST b).frames = s.frames := rfl
@[simp] theorem State.setST_diag (b : Byte) : (s.setST b).diag = s.diag := rfl
@[simp] theorem State.setST_rnd (b : Byte) : (s.setST b).rnd = s.rnd := rfl
@[simp] theorem State.setST_iteration (b : Byte) : (s.setST b).iteration = s.iteration := rfl
@[simp] theorem State.setST_cfg (b : Byte) : (s.setST b).cfg = s.cfg := rfl
@[simp] theorem State.setST_getV (b : Byte) (r : Reg) : (s.setST b).getV r = s.getV r := rfl
@[simp] theorem State.setST_getKey (b : Byte) (j : Key) : (s.setST b).getKey j = s.getKey j := rfl
@[simp] theorem State.setST_readByte (b : Byte) (n : Nat) : (s.setST b).readByte n = s.readByte n := rfl

/-! ### `pc <- a mod 4096` -/

@[simp] theorem State.setPc_v (a : Nat) : (s.setPc a).v = s.v := rfl
@[simp] theorem State.setPc_i (a : Nat) : (s.setPc a).i = s.i := rfl
@[simp] theorem State.setPc_pc (a : Nat) : (s.setPc a).pc = BitVec.ofNat 16 (a % 4096) := rfl
@[simp] theorem State.setPc_sp (a : Nat) : (s.setPc a).sp = s.sp := rfl
@[simp] theorem State.setPc_stack (a : Nat) : (s.setPc a).stack = s.stack := rfl
@[simp] theorem State.setPc_dt (a : Nat) : (s.setPc a).dt = s.dt := rfl
@[simp] theorem State.setPc_st (a : Nat) : (s.setPc a).st = s.st := rfl
@[simp] theorem State.setPc_mem (a : Nat) : (s.setPc a).mem = s.mem := rfl
@[simp] theorem State.setPc_fb (a : Nat) : (s.setPc a).fb = s.fb := rfl
@[simp] theorem State.setPc_key (a : Nat) : (s.setPc a).key = s.key := rfl
@[simp] theorem State.setPc_acc (a : Nat) : (s.setPc a).acc = s.acc := rfl
@[simp] theorem State.setPc_mode (a : Nat) : (s.setPc a).mode = s.mode := rfl
@[simp] theorem State.setPc_tone (a : Nat) : (s.setPc a).tone = s.tone := rfl
@[simp] theorem State.setPc_frames (a : Nat) : (s.setPc a).frames = s.frames := rfl
@[simp] theorem State.setPc_diag (a : Nat) : (s.setPc a).diag = s.diag := rfl
@[simp] theorem State.setPc_rnd (a : Nat) : (s.setPc a).rnd = s.rnd := rfl
@[simp] theorem State.setPc_iteration (a : Nat) : (s.setPc a).iteration = s.iteration := rfl
@[simp] theorem State.setPc_cfg (a : Nat) : (s.setPc a).cfg = s.cfg := rfl
@[simp] theorem State.setPc_getV (a : Nat) (r : Reg) : (s.setPc a).getV r = s.getV r := rfl
@[simp] theorem State.setPc_getKey (a : Nat) (j : Key) : (s.setPc a).getKey j = s.getKey j := rfl
@[simp] theorem State.setPc_readByte (a : Nat) (n : Nat) : (s.setPc a).readByte n = s.readByte n := rfl

/-! ### the fetch advance -/

@[simp] theorem State.advance_v : (s.advance).v = s.v := rfl
@[simp] theorem State.advance_i : (s.advance).i = s.i := rfl
@[simp] theorem State.advance_pc : (s.advance).pc = BitVec.ofNat 16 ((s.pc.toNat + 2) % 4096) := rfl
@[simp] theorem State.advance_sp : (s.advance).sp = s.sp := rfl
@[simp] theorem State.advance_stack : (s.advance).stack = s.stack := rfl
@[simp] theorem State.advance_dt : (s.advance).dt = s.dt := rfl
@[simp] theorem State.advance_st : (s.advance).st = s.st := rfl
@[simp] theorem State.advance_mem : (s.advance).mem = s.mem := rfl
@[simp] theorem State.advance_fb : (s.advance).fb = s.fb := rfl
@[simp] theorem State.advance_key : (s.advance).key = s.key := rfl
@[simp] theorem State.advance_acc : (s.advance).acc = s.acc := rfl
@[simp] theorem State.advance_mode : (s.advance).mode = s.mode := rfl
@[simp] theorem State.advance_tone : (s.advance).tone = s.tone := rfl
@[simp] theorem State.advance_frames : (s.advance).frames = s.frames := rfl
@[simp] theorem State.advance_diag : (s.advance).diag = s.diag := rfl
@[simp] theorem State.advance_rnd : (s.advance).rnd = s.rnd := rfl
@[simp] theorem State.advance_iteration : (s.advance).iteration = s.iteration := rfl
@[simp] theorem State.advance_cfg : (s.advance).cfg = s.cfg := rfl
@[simp] theorem State.advance_getV (r : Reg) : (s.advance).getV r = s.getV r := rfl
@[simp] theorem State.advance_getKey (j : Key) : (s.advance).getKey j = s.getKey j := rfl
@[simp] theorem State.advance_readByte (n : Nat) : (s.advance).readByte n = s.readByte n := rfl

/-! ### a byte write -/

@[simp] theorem State.writeByte_v (a : Nat) (b : Byte) : (s.writeByte a b).v = s.v := rfl
@[simp] theorem State.writeByte_i (a : Nat) (b : Byte) : (s.writeByte a b).i = s.i := rfl
@[simp] theorem State.writeByte_pc (a : Nat) (b : Byte) : (s.writeByte a b).pc = s.pc := rfl
@[simp] theorem State.writeByte_sp (a : Nat) (b : Byte) : (s.writeByte a b).sp = s.sp := rfl
@[simp] theorem State.writeByte_stack (a : Nat) (b : Byte) : (s.writeByte a b).stack = s.stack := rfl
@[simp] theorem State.writeByte_dt (a : Nat) (b : Byte) : (s.writeByte a b).dt = s.dt := rfl
@[simp] theorem State.writeByte_st (a : Nat) (b : Byte) : (s.writeByte a b).st = s.st := rfl
@[simp] theorem State.writeByte_mem (a : Nat) (b : Byte) :
    (s.writeByte a b).mem = Memory.write s.cfg.font s.mem (maskAddr a) b := rfl
@[simp] theorem State.writeByte_fb (a : Nat) (b : Byte) : (s.writeByte a b).fb = s.fb := rfl
@[simp] theorem State.writeByte_key (a : Nat) (b : Byte) : (s.writeByte a b).key = s.key := rfl
@[simp] theorem State.writeByte_acc (a : Nat) (b : Byte) : (s.writeByte a b).acc = s.acc := rfl
@[simp] theorem State.writeByte_mode (a : Nat) (b : Byte) : (s.writeByte a b).mode = s.mode := rfl
@[simp] theorem State.writeByte_tone (a : Nat) (b : Byte) : (s.writeByte a b).tone = s.tone := rfl
@[simp] theorem State.writeByte_frames (a : Nat) (b : Byte) : (s.writeByte a b).frames = s.frames := rfl
@[simp] theorem State.writeByte_diag (a : Nat) (b : Byte) : (s.writeByte a b).diag = s.diag := rfl
@[simp] theorem State.writeByte_rnd (a : Nat) (b : Byte) : (s.writeByte a b).rnd = s.rnd := rfl
@[simp] theorem State.writeByte_iteration (a : Nat) (b : Byte) :
    (s.writeByte a b).iteration = s.iteration := rfl
@[simp] theorem State.writeByte_cfg (a : Nat) (b : Byte) : (s.writeByte a b).cfg = s.cfg := rfl
@[simp] theorem State.writeByte_getV (a : Nat) (b : Byte) (r : Reg) :
    (s.writeByte a b).getV r = s.getV r := rfl
@[simp] theorem State.writeByte_getKey (a : Nat) (b : Byte) (j : Key) :
    (s.writeByte a b).getKey j = s.getKey j := rfl

/-! ### a push -/

@[simp] theorem State.pushPc_v (h : s.sp.toNat < 16) : (s.pushPc h).v = s.v := rfl
@[simp] theorem State.pushPc_i (h : s.sp.toNat < 16) : (s.pushPc h).i = s.i := rfl
@[simp] theorem State.pushPc_pc (h : s.sp.toNat < 16) : (s.pushPc h).pc = s.pc := rfl
@[simp] theorem State.pushPc_sp (h : s.sp.toNat < 16) :
    (s.pushPc h).sp = BitVec.ofNat 8 (s.sp.toNat + 1) := rfl
@[simp] theorem State.pushPc_stack (h : s.sp.toNat < 16) :
    (s.pushPc h).stack = s.stack.set s.sp.toNat s.pc h := rfl
@[simp] theorem State.pushPc_dt (h : s.sp.toNat < 16) : (s.pushPc h).dt = s.dt := rfl
@[simp] theorem State.pushPc_st (h : s.sp.toNat < 16) : (s.pushPc h).st = s.st := rfl
@[simp] theorem State.pushPc_mem (h : s.sp.toNat < 16) : (s.pushPc h).mem = s.mem := rfl
@[simp] theorem State.pushPc_fb (h : s.sp.toNat < 16) : (s.pushPc h).fb = s.fb := rfl
@[simp] theorem State.pushPc_key (h : s.sp.toNat < 16) : (s.pushPc h).key = s.key := rfl
@[simp] theorem State.pushPc_acc (h : s.sp.toNat < 16) : (s.pushPc h).acc = s.acc := rfl
@[simp] theorem State.pushPc_mode (h : s.sp.toNat < 16) : (s.pushPc h).mode = s.mode := rfl
@[simp] theorem State.pushPc_tone (h : s.sp.toNat < 16) : (s.pushPc h).tone = s.tone := rfl
@[simp] theorem State.pushPc_frames (h : s.sp.toNat < 16) : (s.pushPc h).frames = s.frames := rfl
@[simp] theorem State.pushPc_diag (h : s.sp.toNat < 16) : (s.pushPc h).diag = s.diag := rfl
@[simp] theorem State.pushPc_rnd (h : s.sp.toNat < 16) : (s.pushPc h).rnd = s.rnd := rfl
@[simp] theorem State.pushPc_iteration (h : s.sp.toNat < 16) : (s.pushPc h).iteration = s.iteration := rfl
@[simp] theorem State.pushPc_cfg (h : s.sp.toNat < 16) : (s.pushPc h).cfg = s.cfg := rfl
@[simp] theorem State.pushPc_getV (h : s.sp.toNat < 16) (r : Reg) : (s.pushPc h).getV r = s.getV r := rfl
@[simp] theorem State.pushPc_getKey (h : s.sp.toNat < 16) (j : Key) :
    (s.pushPc h).getKey j = s.getKey j := rfl
@[simp] theorem State.pushPc_readByte (h : s.sp.toNat < 16) (n : Nat) :
    (s.pushPc h).readByte n = s.readByte n := rfl

/-! ### a pop -/

@[simp] theorem State.popPc_v (h : s.sp.toNat - 1 < 16) : (s.popPc h).v = s.v := rfl
@[simp] theorem State.popPc_i (h : s.sp.toNat - 1 < 16) : (s.popPc h).i = s.i := rfl
@[simp] theorem State.popPc_pc (h : s.sp.toNat - 1 < 16) :
    (s.popPc h).pc = BitVec.ofNat 16 ((s.stack[s.sp.toNat - 1]'h).toNat % 4096) := rfl
@[simp] theorem State.popPc_sp (h : s.sp.toNat - 1 < 16) :
    (s.popPc h).sp = BitVec.ofNat 8 (s.sp.toNat - 1) := rfl
@[simp] theorem State.popPc_stack (h : s.sp.toNat - 1 < 16) : (s.popPc h).stack = s.stack := rfl
@[simp] theorem State.popPc_dt (h : s.sp.toNat - 1 < 16) : (s.popPc h).dt = s.dt := rfl
@[simp] theorem State.popPc_st (h : s.sp.toNat - 1 < 16) : (s.popPc h).st = s.st := rfl
@[simp] theorem State.popPc_mem (h : s.sp.toNat - 1 < 16) : (s.popPc h).mem = s.mem := rfl
@[simp] theorem State.popPc_fb (h : s.sp.toNat - 1 < 16) : (s.popPc h).fb = s.fb := rfl
@[simp] theorem State.popPc_key (h : s.sp.toNat - 1 < 16) : (s.popPc h).key = s.key := rfl
@[simp] theorem State.popPc_acc (h : s.sp.toNat - 1 < 16) : (s.popPc h).acc = s.acc := rfl
@[simp] theorem State.popPc_mode (h : s.sp.toNat - 1 < 16) : (s.popPc h).mode = s.mode := rfl
@[simp] theorem State.popPc_tone (h : s.sp.toNat - 1 < 16) : (s.popPc h).tone = s.tone := rfl
@[simp] theorem State.popPc_frames (h : s.sp.toNat - 1 < 16) : (s.popPc h).frames = s.frames := rfl
@[simp] theorem State.popPc_diag (h : s.sp.toNat - 1 < 16) : (s.popPc h).diag = s.diag := rfl
@[simp] theorem State.popPc_rnd (h : s.sp.toNat - 1 < 16) : (s.popPc h).rnd = s.rnd := rfl
@[simp] theorem State.popPc_iteration (h : s.sp.toNat - 1 < 16) : (s.popPc h).iteration = s.iteration := rfl
@[simp] theorem State.popPc_cfg (h : s.sp.toNat - 1 < 16) : (s.popPc h).cfg = s.cfg := rfl
@[simp] theorem State.popPc_getV (h : s.sp.toNat - 1 < 16) (r : Reg) : (s.popPc h).getV r = s.getV r := rfl
@[simp] theorem State.popPc_getKey (h : s.sp.toNat - 1 < 16) (j : Key) :
    (s.popPc h).getKey j = s.getKey j := rfl
@[simp] theorem State.popPc_readByte (h : s.sp.toNat - 1 < 16) (n : Nat) :
    (s.popPc h).readByte n = s.readByte n := rfl

/-! ### replacing the framebuffer -/

@[simp] theorem State.setFB_v (f : FrameBuffer) : (s.setFB f).v = s.v := rfl
@[simp] theorem State.setFB_i (f : FrameBuffer) : (s.setFB f).i = s.i := rfl
@[simp] theorem State.setFB_pc (f : FrameBuffer) : (s.setFB f).pc = s.pc := rfl
@[simp] theorem State.setFB_sp (f : FrameBuffer) : (s.setFB f).sp = s.sp := rfl
@[simp] theorem State.setFB_stack (f : FrameBuffer) : (s.setFB f).stack = s.stack := rfl
@[simp] theorem State.setFB_dt (f : FrameBuffer) : (s.setFB f).dt = s.dt := rfl
@[simp] theorem State.setFB_st (f : FrameBuffer) : (s.setFB f).st = s.st := rfl
@[simp] theorem State.setFB_mem (f : FrameBuffer) : (s.setFB f).mem = s.mem := rfl
@[simp] theorem State.setFB_fb (f : FrameBuffer) : (s.setFB f).fb = f := rfl
@[simp] theorem State.setFB_key (f : FrameBuffer) : (s.setFB f).key = s.key := rfl
@[simp] theorem State.setFB_acc (f : FrameBuffer) : (s.setFB f).acc = s.acc := rfl
@[simp] theorem State.setFB_mode (f : FrameBuffer) : (s.setFB f).mode = s.mode := rfl
@[simp] theorem State.setFB_tone (f : FrameBuffer) : (s.setFB f).tone = s.tone := rfl
@[simp] theorem State.setFB_frames (f : FrameBuffer) : (s.setFB f).frames = s.frames := rfl
@[simp] theorem State.setFB_diag (f : FrameBuffer) : (s.setFB f).diag = s.diag := rfl
@[simp] theorem State.setFB_rnd (f : FrameBuffer) : (s.setFB f).rnd = s.rnd := rfl
@[simp] theorem State.setFB_iteration (f : FrameBuffer) : (s.setFB f).iteration = s.iteration := rfl
@[simp] theorem State.setFB_cfg (f : FrameBuffer) : (s.setFB f).cfg = s.cfg := rfl
@[simp] theorem State.setFB_getV (f : FrameBuffer) (r : Reg) : (s.setFB f).getV r = s.getV r := rfl
@[simp] theorem State.setFB_getKey (f : FrameBuffer) (j : Key) : (s.setFB f).getKey j = s.getKey j := rfl
@[simp] theorem State.setFB_readByte (f : FrameBuffer) (n : Nat) :
    (s.setFB f).readByte n = s.readByte n := rfl

/-! ### a frame sent -/

@[simp] theorem State.notifyRender_v : (s.notifyRender).v = s.v := rfl
@[simp] theorem State.notifyRender_i : (s.notifyRender).i = s.i := rfl
@[simp] theorem State.notifyRender_pc : (s.notifyRender).pc = s.pc := rfl
@[simp] theorem State.notifyRender_sp : (s.notifyRender).sp = s.sp := rfl
@[simp] theorem State.notifyRender_stack : (s.notifyRender).stack = s.stack := rfl
@[simp] theorem State.notifyRender_dt : (s.notifyRender).dt = s.dt := rfl
@[simp] theorem State.notifyRender_st : (s.notifyRender).st = s.st := rfl
@[simp] theorem State.notifyRender_mem : (s.notifyRender).mem = s.mem := rfl
@[simp] theorem State.notifyRender_fb : (s.notifyRender).fb = s.fb := rfl
@[simp] theorem State.notifyRender_key : (s.notifyRender).key = s.key := rfl
@[simp] theorem State.notifyRender_acc : (s.notifyRender).acc = s.acc := rfl
@[simp] theorem State.notifyRender_mode : (s.notifyRender).mode = s.mode := rfl
@[simp] theorem State.notifyRender_tone : (s.notifyRender).tone = s.tone := rfl
@[simp] theorem State.notifyRender_frames : (s.notifyRender).frames = s.frames ++ [s.fb] := rfl
@[simp] theorem State.notifyRender_diag : (s.notifyRender).diag = s.diag := rfl
@[simp] theorem State.notifyRender_rnd : (s.notifyRender).rnd = s.rnd := rfl
@[simp] theorem State.notifyRender_iteration : (s.notifyRender).iteration = s.iteration := rfl
@[simp] theorem State.notifyRender_cfg : (s.notifyRender).cfg = s.cfg := rfl
@[simp] theorem State.notifyRender_getV (r : Reg) : (s.notifyRender).getV r = s.getV r := rfl
@[simp] theorem State.notifyRender_getKey (j : Key) : (s.notifyRender).getKey j = s.getKey j := rfl
@[simp] theorem State.notifyRender_readByte (n : Nat) : (s.notifyRender).readByte n = s.readByte n := rfl

/-! ### a diagnostic sent -/

@[simp] theorem State.emitDiag_v (w : Word) (a : Addr) : (s.emitDiag w a).v = s.v := rfl
@[simp] theorem State.emitDiag_i (w : Word) (a : Addr) : (s.emitDiag w a).i = s.i := rfl
@[simp] theorem State.emitDiag_pc (w : Word) (a : Addr) : (s.emitDiag w a).pc = s.pc := rfl
@[simp] theorem State.emitDiag_sp (w : Word) (a : Addr) : (s.emitDiag w a).sp = s.sp := rfl
@[simp] theorem State.emitDiag_stack (w : Word) (a : Addr) : (s.emitDiag w a).stack = s.stack := rfl
@[simp] theorem State.emitDiag_dt (w : Word) (a : Addr) : (s.emitDiag w a).dt = s.dt := rfl
@[simp] theorem State.emitDiag_st (w : Word) (a : Addr) : (s.emitDiag w a).st = s.st := rfl
@[simp] theorem State.emitDiag_mem (w : Word) (a : Addr) : (s.emitDiag w a).mem = s.mem := rfl
@[simp] theorem State.emitDiag_fb (w : Word) (a : Addr) : (s.emitDiag w a).fb = s.fb := rfl
@[simp] theorem State.emitDiag_key (w : Word) (a : Addr) : (s.emitDiag w a).key = s.key := rfl
@[simp] theorem State.emitDiag_acc (w : Word) (a : Addr) : (s.emitDiag w a).acc = s.acc := rfl
@[simp] theorem State.emitDiag_mode (w : Word) (a : Addr) : (s.emitDiag w a).mode = s.mode := rfl
@[simp] theorem State.emitDiag_tone (w : Word) (a : Addr) : (s.emitDiag w a).tone = s.tone := rfl
@[simp] theorem State.emitDiag_frames (w : Word) (a : Addr) : (s.emitDiag w a).frames = s.frames := rfl
@[simp] theorem State.emitDiag_diag (w : Word) (a : Addr) : (s.emitDiag w a).diag = s.diag ++ [⟨w, a⟩] := rfl
@[simp] theorem State.emitDiag_rnd (w : Word) (a : Addr) : (s.emitDiag w a).rnd = s.rnd := rfl
@[simp] theorem State.emitDiag_iteration (w : Word) (a : Addr) :
    (s.emitDiag w a).iteration = s.iteration := rfl
@[simp] theorem State.emitDiag_cfg (w : Word) (a : Addr) : (s.emitDiag w a).cfg = s.cfg := rfl
@[simp] theorem State.emitDiag_getV (w : Word) (a : Addr) (r : Reg) :
    (s.emitDiag w a).getV r = s.getV r := rfl
@[simp] theorem State.emitDiag_getKey (w : Word) (a : Addr) (j : Key) :
    (s.emitDiag w a).getKey j = s.getKey j := rfl
@[simp] theorem State.emitDiag_readByte (w : Word) (a : Addr) (n : Nat) :
    (s.emitDiag w a).readByte n = s.readByte n := rfl

/-! ### `KEY[k] <- b` -/

@[simp] theorem State.setKey_v (k : Key) (b : Bool) : (s.setKey k b).v = s.v := rfl
@[simp] theorem State.setKey_i (k : Key) (b : Bool) : (s.setKey k b).i = s.i := rfl
@[simp] theorem State.setKey_pc (k : Key) (b : Bool) : (s.setKey k b).pc = s.pc := rfl
@[simp] theorem State.setKey_sp (k : Key) (b : Bool) : (s.setKey k b).sp = s.sp := rfl
@[simp] theorem State.setKey_stack (k : Key) (b : Bool) : (s.setKey k b).stack = s.stack := rfl
@[simp] theorem State.setKey_dt (k : Key) (b : Bool) : (s.setKey k b).dt = s.dt := rfl
@[simp] theorem State.setKey_st (k : Key) (b : Bool) : (s.setKey k b).st = s.st := rfl
@[simp] theorem State.setKey_mem (k : Key) (b : Bool) : (s.setKey k b).mem = s.mem := rfl
@[simp] theorem State.setKey_fb (k : Key) (b : Bool) : (s.setKey k b).fb = s.fb := rfl
@[simp] theorem State.setKey_key (k : Key) (b : Bool) : (s.setKey k b).key = s.key.set k.val b k.isLt := rfl
@[simp] theorem State.setKey_acc (k : Key) (b : Bool) : (s.setKey k b).acc = s.acc := rfl
@[simp] theorem State.setKey_mode (k : Key) (b : Bool) : (s.setKey k b).mode = s.mode := rfl
@[simp] theorem State.setKey_tone (k : Key) (b : Bool) : (s.setKey k b).tone = s.tone := rfl
@[simp] theorem State.setKey_frames (k : Key) (b : Bool) : (s.setKey k b).frames = s.frames := rfl
@[simp] theorem State.setKey_diag (k : Key) (b : Bool) : (s.setKey k b).diag = s.diag := rfl
@[simp] theorem State.setKey_rnd (k : Key) (b : Bool) : (s.setKey k b).rnd = s.rnd := rfl
@[simp] theorem State.setKey_iteration (k : Key) (b : Bool) : (s.setKey k b).iteration = s.iteration := rfl
@[simp] theorem State.setKey_cfg (k : Key) (b : Bool) : (s.setKey k b).cfg = s.cfg := rfl
@[simp] theorem State.setKey_getV (k : Key) (b : Bool) (r : Reg) : (s.setKey k b).getV r = s.getV r := rfl
@[simp] theorem State.setKey_readByte (k : Key) (b : Bool) (n : Nat) :
    (s.setKey k b).readByte n = s.readByte n := rfl

/-! ### entering a terminal mode -/

@[simp] theorem State.enterTerminal_v (m : Mode) : (s.enterTerminal m).v = s.v := rfl
@[simp] theorem State.enterTerminal_i (m : Mode) : (s.enterTerminal m).i = s.i := rfl
@[simp] theorem State.enterTerminal_pc (m : Mode) : (s.enterTerminal m).pc = s.pc := rfl
@[simp] theorem State.enterTerminal_sp (m : Mode) : (s.enterTerminal m).sp = s.sp := rfl
@[simp] theorem State.enterTerminal_stack (m : Mode) : (s.enterTerminal m).stack = s.stack := rfl
@[simp] theorem State.enterTerminal_dt (m : Mode) : (s.enterTerminal m).dt = s.dt := rfl
@[simp] theorem State.enterTerminal_st (m : Mode) : (s.enterTerminal m).st = s.st := rfl
@[simp] theorem State.enterTerminal_mem (m : Mode) : (s.enterTerminal m).mem = s.mem := rfl
@[simp] theorem State.enterTerminal_fb (m : Mode) : (s.enterTerminal m).fb = s.fb := rfl
@[simp] theorem State.enterTerminal_key (m : Mode) : (s.enterTerminal m).key = s.key := rfl
@[simp] theorem State.enterTerminal_acc (m : Mode) : (s.enterTerminal m).acc = s.acc := rfl
@[simp] theorem State.enterTerminal_mode (m : Mode) : (s.enterTerminal m).mode = m := rfl
@[simp] theorem State.enterTerminal_tone (m : Mode) : (s.enterTerminal m).tone = false := rfl
@[simp] theorem State.enterTerminal_frames (m : Mode) : (s.enterTerminal m).frames = s.frames := rfl
@[simp] theorem State.enterTerminal_diag (m : Mode) : (s.enterTerminal m).diag = s.diag := rfl
@[simp] theorem State.enterTerminal_rnd (m : Mode) : (s.enterTerminal m).rnd = s.rnd := rfl
@[simp] theorem State.enterTerminal_iteration (m : Mode) : (s.enterTerminal m).iteration = s.iteration := rfl
@[simp] theorem State.enterTerminal_cfg (m : Mode) : (s.enterTerminal m).cfg = s.cfg := rfl
@[simp] theorem State.enterTerminal_getV (m : Mode) (r : Reg) : (s.enterTerminal m).getV r = s.getV r := rfl
@[simp] theorem State.enterTerminal_getKey (m : Mode) (j : Key) :
    (s.enterTerminal m).getKey j = s.getKey j := rfl
@[simp] theorem State.enterTerminal_readByte (m : Mode) (n : Nat) :
    (s.enterTerminal m).readByte n = s.readByte n := rfl

/-! ### the key wait begins -/

@[simp] theorem State.suspend_v (x : Reg) : (s.suspend x).v = s.v := rfl
@[simp] theorem State.suspend_i (x : Reg) : (s.suspend x).i = s.i := rfl
@[simp] theorem State.suspend_pc (x : Reg) : (s.suspend x).pc = s.pc := rfl
@[simp] theorem State.suspend_sp (x : Reg) : (s.suspend x).sp = s.sp := rfl
@[simp] theorem State.suspend_stack (x : Reg) : (s.suspend x).stack = s.stack := rfl
@[simp] theorem State.suspend_dt (x : Reg) : (s.suspend x).dt = s.dt := rfl
@[simp] theorem State.suspend_st (x : Reg) : (s.suspend x).st = s.st := rfl
@[simp] theorem State.suspend_mem (x : Reg) : (s.suspend x).mem = s.mem := rfl
@[simp] theorem State.suspend_fb (x : Reg) : (s.suspend x).fb = s.fb := rfl
@[simp] theorem State.suspend_key (x : Reg) : (s.suspend x).key = s.key := rfl
@[simp] theorem State.suspend_acc (x : Reg) : (s.suspend x).acc = s.acc := rfl
@[simp] theorem State.suspend_mode (x : Reg) : (s.suspend x).mode = .suspended x := rfl
@[simp] theorem State.suspend_tone (x : Reg) : (s.suspend x).tone = s.tone := rfl
@[simp] theorem State.suspend_frames (x : Reg) : (s.suspend x).frames = s.frames := rfl
@[simp] theorem State.suspend_diag (x : Reg) : (s.suspend x).diag = s.diag := rfl
@[simp] theorem State.suspend_rnd (x : Reg) : (s.suspend x).rnd = s.rnd := rfl
@[simp] theorem State.suspend_iteration (x : Reg) : (s.suspend x).iteration = s.iteration := rfl
@[simp] theorem State.suspend_cfg (x : Reg) : (s.suspend x).cfg = s.cfg := rfl
@[simp] theorem State.suspend_getV (x : Reg) (r : Reg) : (s.suspend x).getV r = s.getV r := rfl
@[simp] theorem State.suspend_getKey (x : Reg) (j : Key) : (s.suspend x).getKey j = s.getKey j := rfl
@[simp] theorem State.suspend_readByte (x : Reg) (n : Nat) : (s.suspend x).readByte n = s.readByte n := rfl

/-! ### the key wait ends -/

@[simp] theorem State.resume_v (x : Reg) (k : Key) :
    (s.resume x k).v = s.v.set x.val (BitVec.ofNat 8 k.val) x.isLt := rfl
@[simp] theorem State.resume_i (x : Reg) (k : Key) : (s.resume x k).i = s.i := rfl
@[simp] theorem State.resume_pc (x : Reg) (k : Key) : (s.resume x k).pc = s.pc := rfl
@[simp] theorem State.resume_sp (x : Reg) (k : Key) : (s.resume x k).sp = s.sp := rfl
@[simp] theorem State.resume_stack (x : Reg) (k : Key) : (s.resume x k).stack = s.stack := rfl
@[simp] theorem State.resume_dt (x : Reg) (k : Key) : (s.resume x k).dt = s.dt := rfl
@[simp] theorem State.resume_st (x : Reg) (k : Key) : (s.resume x k).st = s.st := rfl
@[simp] theorem State.resume_mem (x : Reg) (k : Key) : (s.resume x k).mem = s.mem := rfl
@[simp] theorem State.resume_fb (x : Reg) (k : Key) : (s.resume x k).fb = s.fb := rfl
@[simp] theorem State.resume_key (x : Reg) (k : Key) : (s.resume x k).key = s.key := rfl
@[simp] theorem State.resume_acc (x : Reg) (k : Key) : (s.resume x k).acc = s.acc := rfl
@[simp] theorem State.resume_mode (x : Reg) (k : Key) : (s.resume x k).mode = .running := rfl
@[simp] theorem State.resume_tone (x : Reg) (k : Key) : (s.resume x k).tone = s.tone := rfl
@[simp] theorem State.resume_frames (x : Reg) (k : Key) : (s.resume x k).frames = s.frames := rfl
@[simp] theorem State.resume_diag (x : Reg) (k : Key) : (s.resume x k).diag = s.diag := rfl
@[simp] theorem State.resume_rnd (x : Reg) (k : Key) : (s.resume x k).rnd = s.rnd := rfl
@[simp] theorem State.resume_iteration (x : Reg) (k : Key) : (s.resume x k).iteration = s.iteration := rfl
@[simp] theorem State.resume_cfg (x : Reg) (k : Key) : (s.resume x k).cfg = s.cfg := rfl
@[simp] theorem State.resume_getKey (x : Reg) (k : Key) (j : Key) :
    (s.resume x k).getKey j = s.getKey j := rfl
@[simp] theorem State.resume_readByte (x : Reg) (k : Key) (n : Nat) :
    (s.resume x k).readByte n = s.readByte n := rfl

/-! ### the tone update -/

@[simp] theorem State.toneUpdate_v : (s.toneUpdate).v = s.v := rfl
@[simp] theorem State.toneUpdate_i : (s.toneUpdate).i = s.i := rfl
@[simp] theorem State.toneUpdate_pc : (s.toneUpdate).pc = s.pc := rfl
@[simp] theorem State.toneUpdate_sp : (s.toneUpdate).sp = s.sp := rfl
@[simp] theorem State.toneUpdate_stack : (s.toneUpdate).stack = s.stack := rfl
@[simp] theorem State.toneUpdate_dt : (s.toneUpdate).dt = s.dt := rfl
@[simp] theorem State.toneUpdate_st : (s.toneUpdate).st = s.st := rfl
@[simp] theorem State.toneUpdate_mem : (s.toneUpdate).mem = s.mem := rfl
@[simp] theorem State.toneUpdate_fb : (s.toneUpdate).fb = s.fb := rfl
@[simp] theorem State.toneUpdate_key : (s.toneUpdate).key = s.key := rfl
@[simp] theorem State.toneUpdate_acc : (s.toneUpdate).acc = s.acc := rfl
@[simp] theorem State.toneUpdate_mode : (s.toneUpdate).mode = s.mode := rfl
@[simp] theorem State.toneUpdate_tone : (s.toneUpdate).tone = decide (s.st ≠ 0) := rfl
@[simp] theorem State.toneUpdate_frames : (s.toneUpdate).frames = s.frames := rfl
@[simp] theorem State.toneUpdate_diag : (s.toneUpdate).diag = s.diag := rfl
@[simp] theorem State.toneUpdate_rnd : (s.toneUpdate).rnd = s.rnd := rfl
@[simp] theorem State.toneUpdate_iteration : (s.toneUpdate).iteration = s.iteration := rfl
@[simp] theorem State.toneUpdate_cfg : (s.toneUpdate).cfg = s.cfg := rfl
@[simp] theorem State.toneUpdate_getV (r : Reg) : (s.toneUpdate).getV r = s.getV r := rfl
@[simp] theorem State.toneUpdate_getKey (j : Key) : (s.toneUpdate).getKey j = s.getKey j := rfl
@[simp] theorem State.toneUpdate_readByte (n : Nat) : (s.toneUpdate).readByte n = s.readByte n := rfl

/-! ### an iteration begins -/

@[simp] theorem State.begin_v (inp : Inputs) : (s.begin inp).v = s.v := rfl
@[simp] theorem State.begin_i (inp : Inputs) : (s.begin inp).i = s.i := rfl
@[simp] theorem State.begin_pc (inp : Inputs) : (s.begin inp).pc = s.pc := rfl
@[simp] theorem State.begin_sp (inp : Inputs) : (s.begin inp).sp = s.sp := rfl
@[simp] theorem State.begin_stack (inp : Inputs) : (s.begin inp).stack = s.stack := rfl
@[simp] theorem State.begin_dt (inp : Inputs) : (s.begin inp).dt = s.dt := rfl
@[simp] theorem State.begin_st (inp : Inputs) : (s.begin inp).st = s.st := rfl
@[simp] theorem State.begin_mem (inp : Inputs) : (s.begin inp).mem = s.mem := rfl
@[simp] theorem State.begin_fb (inp : Inputs) : (s.begin inp).fb = s.fb := rfl
@[simp] theorem State.begin_key (inp : Inputs) : (s.begin inp).key = s.key := rfl
@[simp] theorem State.begin_acc (inp : Inputs) : (s.begin inp).acc = s.acc := rfl
@[simp] theorem State.begin_mode (inp : Inputs) : (s.begin inp).mode = s.mode := rfl
@[simp] theorem State.begin_tone (inp : Inputs) : (s.begin inp).tone = s.tone := rfl
@[simp] theorem State.begin_frames (inp : Inputs) : (s.begin inp).frames = s.frames := rfl
@[simp] theorem State.begin_diag (inp : Inputs) : (s.begin inp).diag = s.diag := rfl
@[simp] theorem State.begin_rnd (inp : Inputs) : (s.begin inp).rnd = inp.rnd := rfl
@[simp] theorem State.begin_iteration (inp : Inputs) : (s.begin inp).iteration = s.iteration + 1 := rfl
@[simp] theorem State.begin_cfg (inp : Inputs) : (s.begin inp).cfg = s.cfg := rfl
@[simp] theorem State.begin_getV (inp : Inputs) (r : Reg) : (s.begin inp).getV r = s.getV r := rfl
@[simp] theorem State.begin_getKey (inp : Inputs) (j : Key) : (s.begin inp).getKey j = s.getKey j := rfl
@[simp] theorem State.begin_readByte (inp : Inputs) (n : Nat) : (s.begin inp).readByte n = s.readByte n := rfl

end Sys2Proof.Machine
end

