-- ==== Sys2Proof/Laws/Memory.lean ====
section
/-! SUPPORT. The laws of memory: a read after a write, and the canonical form that every memory operation
keeps (20_memory.md rules R51, R52, R62). -/

namespace Sys2Proof.Machine

/-! ### Cells -/

theorem lookup_insert (m : List Host.Cell) (a c : Nat) (b : Byte) :
    lookupCell (insertCell m a b) c = if a = c then some b else lookupCell m c := by
  induction m with
  | nil => simp [insertCell, lookupCell]
  | cons cell m ih =>
    obtain ⟨k, d⟩ := cell
    simp only [insertCell]
    split
    · simp only [lookupCell]
    · split
      · subst a; simp only [lookupCell]; split <;> simp_all
      · simp only [lookupCell, ih]; split <;> split <;> simp_all

theorem lookup_erase (m : List Host.Cell) (a c : Nat) :
    lookupCell (eraseCell m a) c = if a = c then none else lookupCell m c := by
  induction m with
  | nil => simp [eraseCell, lookupCell]
  | cons cell m ih =>
    obtain ⟨k, d⟩ := cell
    by_cases hk : k = a
    · subst k
      have : eraseCell ((a, d) :: m) a = eraseCell m a := by simp [eraseCell]
      rw [this, ih]
      split <;> simp_all [lookupCell]
    · have : eraseCell ((k, d) :: m) a = (k, d) :: eraseCell m a := by simp [eraseCell, hk]
      rw [this]
      simp only [lookupCell, ih]
      split <;> split <;> simp_all

/-- A read after a write: the byte written at its own address, the old byte everywhere else. -/
theorem Memory.read_write (font : Vector Byte 80) (m : List Host.Cell) (a c : Nat) (b : Byte) :
    Memory.read font (Memory.write font m a b) c = if a = c then b else Memory.read font m c := by
  unfold Memory.write Memory.read
  split
  · rename_i hb
    rw [lookup_erase]
    split <;> simp_all
  · rw [lookup_insert]
    split <;> simp_all

/-! ### The canonical form -/

theorem Memory.wfFrom_le {font : Vector Byte 80} {lo lo' : Nat} {m : List Host.Cell}
    (h : Memory.wfFrom font lo m = true) (hlo : lo' ≤ lo) : Memory.wfFrom font lo' m = true := by
  cases m with
  | nil => rfl
  | cons cell m =>
    simp only [Memory.wfFrom, Bool.and_eq_true, decide_eq_true_eq] at h ⊢
    exact ⟨⟨⟨by omega, h.1.1.2⟩, h.1.2⟩, h.2⟩

theorem Memory.wfFrom_erase {font : Vector Byte 80} {lo : Nat} {m : List Host.Cell} (a : Nat)
    (h : Memory.wfFrom font lo m = true) : Memory.wfFrom font lo (eraseCell m a) = true := by
  induction m generalizing lo with
  | nil => rfl
  | cons cell m ih =>
    obtain ⟨k, d⟩ := cell
    simp only [Memory.wfFrom, Bool.and_eq_true, decide_eq_true_eq] at h
    by_cases hk : k = a
    · have : eraseCell ((k, d) :: m) a = eraseCell m a := by simp [eraseCell, hk]
      rw [this]
      exact Memory.wfFrom_le (ih h.2) (by omega)
    · have : eraseCell ((k, d) :: m) a = (k, d) :: eraseCell m a := by simp [eraseCell, hk]
      rw [this]
      simp only [Memory.wfFrom, Bool.and_eq_true, decide_eq_true_eq]
      exact ⟨h.1, ih h.2⟩

theorem Memory.wfFrom_insert {font : Vector Byte 80} {lo : Nat} {m : List Host.Cell} {a : Nat} {b : Byte}
    (h : Memory.wfFrom font lo m = true) (hlo : lo ≤ a) (ha : a < 4096) (hb : b ≠ unlistedByte font a) :
    Memory.wfFrom font lo (insertCell m a b) = true := by
  induction m generalizing lo with
  | nil => simp [insertCell, Memory.wfFrom, hlo, ha, hb]
  | cons cell m ih =>
    obtain ⟨k, d⟩ := cell
    simp only [Memory.wfFrom, Bool.and_eq_true, decide_eq_true_eq] at h
    simp only [insertCell]
    split
    · simp only [Memory.wfFrom, Bool.and_eq_true, decide_eq_true_eq, bne_iff_ne]
      exact ⟨⟨⟨hlo, ha⟩, hb⟩, ⟨⟨by omega, h.1.1.2⟩, by simpa using h.1.2⟩, h.2⟩
    · split
      · subst k
        simp only [Memory.wfFrom, Bool.and_eq_true, decide_eq_true_eq, bne_iff_ne]
        exact ⟨⟨⟨hlo, ha⟩, hb⟩, h.2⟩
      · simp only [Memory.wfFrom, Bool.and_eq_true, decide_eq_true_eq]
        exact ⟨h.1, ih h.2 (by omega)⟩

/-- Writing a byte keeps the canonical form. -/
theorem Memory.wf_write {font : Vector Byte 80} {m : List Host.Cell} {a : Nat} {b : Byte}
    (h : Memory.wf font m = true) (ha : a < 4096) : Memory.wf font (Memory.write font m a b) = true := by
  unfold Memory.write
  split
  · exact Memory.wfFrom_erase a h
  · rename_i hb; exact Memory.wfFrom_insert h (Nat.zero_le _) ha hb

/-- The reset memory is in canonical form, whatever the font. -/
theorem Memory.wf_nil (font : Vector Byte 80) : Memory.wf font [] = true := rfl

/-! ### The bus -/

theorem maskAddr_lt (a : Nat) : maskAddr a < 4096 := Nat.mod_lt _ (by decide)

variable (s : State)

theorem State.readByte_writeByte (a c : Nat) (b : Byte) :
    (s.writeByte a b).readByte c = if maskAddr a = maskAddr c then b else s.readByte c :=
  Memory.read_write s.cfg.font s.mem (maskAddr a) (maskAddr c) b

theorem State.writeByte_wf {s : State} (a : Nat) (b : Byte) (h : Memory.wf s.cfg.font s.mem = true) :
    Memory.wf (s.writeByte a b).cfg.font (s.writeByte a b).mem = true :=
  Memory.wf_write h (maskAddr_lt a)

/-- A byte store run writes memory and nothing else. -/
@[simp] theorem State.storeBytes_frame (bs : List Byte) (a : Nat) :
    (s.storeBytes a bs).v = s.v ∧ (s.storeBytes a bs).i = s.i ∧ (s.storeBytes a bs).pc = s.pc ∧
    (s.storeBytes a bs).sp = s.sp ∧ (s.storeBytes a bs).stack = s.stack ∧
    (s.storeBytes a bs).dt = s.dt ∧ (s.storeBytes a bs).st = s.st ∧ (s.storeBytes a bs).fb = s.fb ∧
    (s.storeBytes a bs).key = s.key ∧ (s.storeBytes a bs).acc = s.acc ∧
    (s.storeBytes a bs).mode = s.mode ∧ (s.storeBytes a bs).tone = s.tone ∧
    (s.storeBytes a bs).frames = s.frames ∧ (s.storeBytes a bs).diag = s.diag ∧
    (s.storeBytes a bs).rnd = s.rnd ∧ (s.storeBytes a bs).iteration = s.iteration ∧
    (s.storeBytes a bs).cfg = s.cfg := by
  induction bs generalizing s a with
  | nil => simp [State.storeBytes]
  | cons b bs ih => simpa [State.storeBytes] using ih (s.writeByte a b) (a + 1)

/-- A byte store run leaves every byte outside its addresses. -/
theorem State.storeBytes_outside (bs : List Byte) (a c : Nat)
    (h : ∀ j < bs.length, maskAddr (a + j) ≠ maskAddr c) :
    (s.storeBytes a bs).readByte c = s.readByte c := by
  induction bs generalizing s a with
  | nil => rfl
  | cons b bs ih =>
    rw [State.storeBytes, ih, State.readByte_writeByte, if_neg]
    · simpa using h 0 (by simp)
    · intro j hj
      have := h (j + 1) (by simpa using hj)
      rwa [show a + 1 + j = a + (j + 1) by omega]

/-- A byte store run that does not lap the address space leaves each of its bytes at its address. -/
theorem State.storeBytes_inside (bs : List Byte) (a j : Nat) (hj : j < bs.length)
    (hlen : bs.length ≤ 4096) : (s.storeBytes a bs).readByte (a + j) = bs[j] := by
  induction bs generalizing s a j with
  | nil => simp at hj
  | cons b bs ih =>
    simp only [List.length_cons] at hj hlen
    cases j with
    | zero =>
      rw [State.storeBytes, State.storeBytes_outside, State.readByte_writeByte]
      · simp
      · intro j hj; simp only [maskAddr]; omega
    | succ j =>
      have := ih (s.writeByte a b) (a + 1) j (by omega) (by omega)
      rw [State.storeBytes, show a + (j + 1) = a + 1 + j by omega, this]
      simp

/-- A byte store run keeps the canonical form. -/
theorem State.storeBytes_wf {s : State} (bs : List Byte) (a : Nat)
    (h : Memory.wf s.cfg.font s.mem = true) :
    Memory.wf (s.storeBytes a bs).cfg.font (s.storeBytes a bs).mem = true := by
  induction bs generalizing s a with
  | nil => exact h
  | cons b bs ih => exact ih (a + 1) (State.writeByte_wf a b h)

end Sys2Proof.Machine
end

