-- ==== Sys2Proof/Laws/Ops.lean ====
section
/-! SUPPORT. One lemma per shared operation, saying everything it does: registers, flags, pc, stack, block
transfers, pixels (10_state.md, 42_alu.md, 43_index_memory.md, 44_draw.md). -/

namespace Sys2Proof.Machine

variable (s : State)

/-! ### Registers and keys -/

@[simp] theorem State.getV_setV (x r : Reg) (b : Byte) :
    (s.setV x b).getV r = if x = r then b else s.getV r := by
  simp [State.getV, State.setV, Vector.getElem_set, Fin.ext_iff]

@[simp] theorem State.getV_resume (x r : Reg) (k : Key) :
    (s.resume x k).getV r = if x = r then BitVec.ofNat 8 k.val else s.getV r := by
  simp [State.getV, State.resume, Vector.getElem_set, Fin.ext_iff]

@[simp] theorem State.getKey_setKey (k j : Key) (b : Bool) :
    (s.setKey k b).getKey j = if k = j then b else s.getKey j := by
  simp [State.getKey, State.setKey, Vector.getElem_set, Fin.ext_iff]

/-- `setFlag` is a register write, so the lemmas about `setV` apply to it. -/
@[simp] theorem State.setFlag_eq (c : Bool) : s.setFlag c = s.setV VF (flagByte c) := rfl

/-- A result and its flag: VF ends as the flag, also when it is the destination (R22). -/
@[simp] theorem State.setVFlag_eq (x : Reg) (b : Byte) (c : Bool) :
    s.setVFlag x b c = (s.setV x b).setV VF (flagByte c) := rfl

theorem State.getV_setVFlag (x r : Reg) (b : Byte) (c : Bool) :
    (s.setVFlag x b c).getV r = if r = VF then flagByte c else if r = x then b else s.getV r := by
  simp [eq_comm]

/-! ### Flags and arithmetic as numbers (R120) -/

theorem addByte_toNat (a b : Byte) : (addByte a b).toNat = (a.toNat + b.toNat) % 256 := by
  simp [addByte]

theorem subByte_toNat (a b : Byte) : (subByte a b).toNat = (a.toNat + 256 - b.toNat) % 256 := by
  simp [subByte]

theorem shiftRight_toNat (b : Byte) : (shiftRight b).toNat = b.toNat / 2 := by
  have := b.isLt
  simp only [shiftRight, BitVec.toNat_ofNat]; omega

theorem shiftLeft_toNat (b : Byte) : (shiftLeft b).toNat = b.toNat * 2 % 256 := by
  simp [shiftLeft]

theorem flagByte_zero_or_one (c : Bool) : flagByte c = 0#8 ∨ flagByte c = 1#8 := by
  cases c <;> simp [flagByte]

/-! ### Program counter -/

/-- Every write of pc lands in [0,4096) (R23). -/
theorem State.setPc_toNat (a : Nat) : (s.setPc a).pc.toNat = a % 4096 := by
  simp only [State.setPc_pc, BitVec.toNat_ofNat]; omega

theorem State.advance_toNat : s.advance.pc.toNat = (s.pc.toNat + 2) % 4096 := s.setPc_toNat _

/-- The instruction that runs after the fetch advance finds its own address (R16). -/
theorem State.fetchAddr_advance : s.advance.fetchAddr.toNat = s.pc.toNat % 4096 := by
  have := s.advance_toNat
  simp only [State.fetchAddr, BitVec.toNat_ofNat]; omega

/-- A skip writes pc and nothing else: 2 more when taken (R110). -/
theorem State.skipIf_eq (c : Bool) :
    s.skipIf c = s.setPc (if c then s.pc.toNat + 2 else s.pc.toNat) ∨ c = false ∧ s.skipIf c = s := by
  cases c
  · exact .inr ⟨rfl, rfl⟩
  · exact .inl rfl

theorem State.skipIf_toNat (c : Bool) (h : s.pc.toNat < 4096) :
    (s.skipIf c).pc.toNat = (s.pc.toNat + if c then 2 else 0) % 4096 := by
  cases c
  · simp only [State.skipIf, Bool.false_eq_true, if_false]; omega
  · exact s.advance_toNat

@[simp] theorem State.skipIf_frame (c : Bool) :
    (s.skipIf c).v = s.v ∧ (s.skipIf c).i = s.i ∧ (s.skipIf c).sp = s.sp ∧
    (s.skipIf c).stack = s.stack ∧ (s.skipIf c).dt = s.dt ∧ (s.skipIf c).st = s.st ∧
    (s.skipIf c).mem = s.mem ∧ (s.skipIf c).fb = s.fb ∧ (s.skipIf c).key = s.key ∧
    (s.skipIf c).acc = s.acc ∧ (s.skipIf c).mode = s.mode ∧ (s.skipIf c).tone = s.tone ∧
    (s.skipIf c).frames = s.frames ∧ (s.skipIf c).diag = s.diag ∧ (s.skipIf c).rnd = s.rnd ∧
    (s.skipIf c).iteration = s.iteration ∧ (s.skipIf c).cfg = s.cfg := by
  cases c <;> simp [State.skipIf]

@[simp] theorem State.skipIf_getV (c : Bool) (r : Reg) : (s.skipIf c).getV r = s.getV r := by
  cases c <;> rfl

@[simp] theorem State.skipIf_getKey (c : Bool) (k : Key) : (s.skipIf c).getKey k = s.getKey k := by
  cases c <;> rfl

@[simp] theorem State.skipIf_readByte (c : Bool) (a : Nat) : (s.skipIf c).readByte a = s.readByte a := by
  cases c <;> rfl

/-- A key skip is a skip, or the fault of the key-index policy (R176). -/
theorem State.skipOnKey_cases (x : Reg) (pressed : Bool) :
    (∃ k, keyOf s.cfg.keyIndex (s.getV x) = some k ∧
      s.skipOnKey x pressed = .next (s.skipIf (s.getKey k == pressed))) ∨
    (keyOf s.cfg.keyIndex (s.getV x) = none ∧
      s.skipOnKey x pressed = .fault (.keyIndexOutOfRange (s.getV x))) := by
  unfold State.skipOnKey
  cases h : keyOf s.cfg.keyIndex (s.getV x) <;> simp

/-- A key skip that answers a next state is a skip. -/
theorem State.skipOnKey_next {s t : State} {x : Reg} {pressed : Bool}
    (h : s.skipOnKey x pressed = .next t) :
    ∃ k, keyOf s.cfg.keyIndex (s.getV x) = some k ∧ t = s.skipIf (s.getKey k == pressed) := by
  rcases s.skipOnKey_cases x pressed with ⟨k, hk, e⟩ | ⟨-, e⟩ <;> rw [e] at h <;> cases h
  exact ⟨k, hk, rfl⟩

theorem State.skipOnKey_fault {s : State} {x : Reg} {pressed : Bool} {f : Fault}
    (h : s.skipOnKey x pressed = .fault f) :
    s.cfg.keyIndex = .fault ∧ 16 ≤ (s.getV x).toNat ∧ f = .keyIndexOutOfRange (s.getV x) := by
  rcases s.skipOnKey_cases x pressed with ⟨k, -, e⟩ | ⟨hk, e⟩ <;> rw [e] at h <;> cases h
  unfold keyOf at hk
  cases hc : s.cfg.keyIndex <;> simp [hc] at hk
  exact ⟨rfl, hk, rfl⟩

theorem State.skipOnKey_not_refused {s : State} {x : Reg} {pressed : Bool} {r : Refusal} :
    s.skipOnKey x pressed ≠ .refused r := by
  rcases s.skipOnKey_cases x pressed with ⟨k, -, e⟩ | ⟨-, e⟩ <;> simp [e]

/-! ### Modes -/

/-- Halting is entering a terminal mode. -/
@[simp] theorem State.haltWith_eq (c : HaltCause) : s.haltWith c = s.enterTerminal (.halted c) := rfl

/-- A stack violation is entering a terminal mode that names the instruction and its address (R203). -/
@[simp] theorem State.raiseFatal_eq (k : FatalKind) (w : Word) :
    s.raiseFatal k w = s.enterTerminal (.fatal k w s.fetchAddr) := rfl

/-! ### Block transfers -/

theorem mem_regsUpTo (x r : Reg) : r ∈ regsUpTo x ↔ r.val ≤ x.val := by
  revert x r; decide

theorem regsUpTo_length (x : Reg) : (regsUpTo x).length = x.val + 1 := by
  revert x; decide

theorem regsUpTo_getElem (x : Reg) (j : Nat) (h : j < (regsUpTo x).length) :
    ((regsUpTo x)[j]).val = j := by
  have hx := x.isLt
  rw [regsUpTo_length] at h
  have hj : j < 16 := by omega
  simp only [regsUpTo, List.getElem_take]
  revert h
  interval_cases j <;> simp

/-- Loading registers writes the general registers and nothing else. -/
@[simp] theorem State.loadFrom_frame (rs : List Reg) :
    (s.loadFrom rs).i = s.i ∧ (s.loadFrom rs).pc = s.pc ∧ (s.loadFrom rs).sp = s.sp ∧
    (s.loadFrom rs).stack = s.stack ∧ (s.loadFrom rs).dt = s.dt ∧ (s.loadFrom rs).st = s.st ∧
    (s.loadFrom rs).mem = s.mem ∧ (s.loadFrom rs).fb = s.fb ∧ (s.loadFrom rs).key = s.key ∧
    (s.loadFrom rs).acc = s.acc ∧ (s.loadFrom rs).mode = s.mode ∧ (s.loadFrom rs).tone = s.tone ∧
    (s.loadFrom rs).frames = s.frames ∧ (s.loadFrom rs).diag = s.diag ∧ (s.loadFrom rs).rnd = s.rnd ∧
    (s.loadFrom rs).iteration = s.iteration ∧ (s.loadFrom rs).cfg = s.cfg := by
  induction rs generalizing s with
  | nil => simp [State.loadFrom]
  | cons r rs ih => simpa [State.loadFrom] using ih (s.setV r (s.readByte (s.indexAddr r.val)))

/-- Each listed register gets its byte, every other keeps its value. -/
theorem State.getV_loadFrom (rs : List Reg) (r : Reg) :
    (s.loadFrom rs).getV r = if r ∈ rs then s.readByte (s.indexAddr r.val) else s.getV r := by
  induction rs generalizing s with
  | nil => simp [State.loadFrom]
  | cons q rs ih =>
    have := ih (s.setV q (s.readByte (s.indexAddr q.val)))
    simp only [State.loadFrom, List.foldl_cons] at this ⊢
    rw [this]
    by_cases hq : r = q
    · subst hq; simp [State.indexAddr]
    · simp [State.indexAddr, hq, Ne.symm hq]

/-- The block-transfer policy writes I and nothing else. -/
@[simp] theorem State.afterBlock_frame (x : Reg) :
    (s.afterBlock x).v = s.v ∧ (s.afterBlock x).pc = s.pc ∧ (s.afterBlock x).sp = s.sp ∧
    (s.afterBlock x).stack = s.stack ∧ (s.afterBlock x).dt = s.dt ∧ (s.afterBlock x).st = s.st ∧
    (s.afterBlock x).mem = s.mem ∧ (s.afterBlock x).fb = s.fb ∧ (s.afterBlock x).key = s.key ∧
    (s.afterBlock x).acc = s.acc ∧ (s.afterBlock x).mode = s.mode ∧ (s.afterBlock x).tone = s.tone ∧
    (s.afterBlock x).frames = s.frames ∧ (s.afterBlock x).diag = s.diag ∧
    (s.afterBlock x).rnd = s.rnd ∧ (s.afterBlock x).iteration = s.iteration ∧
    (s.afterBlock x).cfg = s.cfg := by
  unfold State.afterBlock; split <;> simp

@[simp] theorem State.afterBlock_getV (x r : Reg) : (s.afterBlock x).getV r = s.getV r := by
  unfold State.afterBlock; split <;> rfl

@[simp] theorem State.afterBlock_readByte (x : Reg) (a : Nat) :
    (s.afterBlock x).readByte a = s.readByte a := by
  unfold State.afterBlock; split <;> rfl

@[simp] theorem State.storeBytes_getV (bs : List Byte) (a : Nat) (r : Reg) :
    (s.storeBytes a bs).getV r = s.getV r := by
  simp [State.getV]

@[simp] theorem State.loadFrom_readByte (rs : List Reg) (a : Nat) :
    (s.loadFrom rs).readByte a = s.readByte a := by
  simp [State.readByte]

theorem State.afterBlock_i (x : Reg) :
    (s.afterBlock x).i =
      match s.cfg.blockI with
      | .unchanged => s.i
      | .increment => BitVec.ofNat 16 (s.i.toNat + x.val + 1) := by
  unfold State.afterBlock; split <;> simp_all

/-! ### Control transfer: everything the two stack instructions can do (R102, R104, R203) -/

theorem execCall_next {nnn : Addr} {s t : State} (h : execCall nnn s = .next t) :
    (s.sp = 16 ∧ t = s.raiseFatal .stackOverflow (encode (.call nnn))) ∨
    ∃ hs : s.sp.toNat < 16, t = (s.pushPc hs).setPc nnn.toNat := by
  unfold execCall at h
  split at h
  · cases h; exact .inl ⟨‹_›, rfl⟩
  · split at h <;> cases h
    exact .inr ⟨‹_›, rfl⟩

theorem execRet_next {s t : State} (h : execRet s = .next t) :
    (s.sp = 0 ∧ t = s.raiseFatal .stackUnderflow (encode .ret)) ∨
    ∃ hs : s.sp.toNat - 1 < 16, s.sp ≠ 0 ∧ t = s.popPc hs := by
  unfold execRet at h
  split at h
  · cases h; exact .inl ⟨‹_›, rfl⟩
  · split at h <;> cases h
    exact .inr ⟨‹_›, ‹_›, rfl⟩

theorem execCall_of_lt {nnn : Addr} {s : State} (h : s.sp.toNat < 16) :
    execCall nnn s = .next ((s.pushPc h).setPc nnn.toNat) := by
  unfold execCall
  rw [if_neg (by intro h'; rw [h'] at h; exact absurd h (by decide)), dif_pos h]

theorem execRet_of_le {s : State} (h0 : s.sp ≠ 0) (h : s.sp.toNat - 1 < 16) :
    execRet s = .next (s.popPc h) := by
  unfold execRet
  rw [if_neg h0, dif_pos h]

theorem execCall_fault {nnn : Addr} {s : State} {f : Fault} (h : execCall nnn s = .fault f) :
    16 < s.sp.toNat ∧ f = .stackPointerIllegal s.sp := by
  unfold execCall at h
  split at h
  · cases h
  · rename_i h16
    have : s.sp.toNat ≠ 16 := fun h' => h16 (BitVec.eq_of_toNat_eq h')
    split at h <;> cases h
    exact ⟨by omega, rfl⟩

theorem execRet_fault {s : State} {f : Fault} (h : execRet s = .fault f) :
    16 < s.sp.toNat ∧ f = .stackPointerIllegal s.sp := by
  unfold execRet at h
  split at h
  · cases h
  · split at h <;> cases h
    exact ⟨by omega, rfl⟩

/-! ### Pixels (R160) -/

theorem FrameBuffer.pixel_setPixel (f : FrameBuffer) (r c r' c' : Nat) (b : Bool) :
    FrameBuffer.pixel (FrameBuffer.setPixel f r c b) r' c' =
      if r % 32 = r' % 32 ∧ c % 64 = c' % 64 then b else FrameBuffer.pixel f r' c' := by
  simp only [FrameBuffer.pixel, FrameBuffer.setPixel, Vector.getElem_set]
  by_cases hr : r % 32 = r' % 32
  · simp [hr, Vector.getElem_set]
  · simp [hr]

/-- One sprite bit: its pixel is XORed, every other pixel stays, and a set pixel that it turns off is a
collision (R162). -/
theorem plotBit_spec (bit : Bool) (row col r c : Nat) (k : Canvas) :
    FrameBuffer.pixel (plotBit bit row col k).1 r c =
      (if row % 32 = r % 32 ∧ col % 64 = c % 64 then FrameBuffer.pixel k.1 r c ^^ bit
        else FrameBuffer.pixel k.1 r c) ∧
    (plotBit bit row col k).2 = (k.2 || (FrameBuffer.pixel k.1 row col && bit)) := by
  refine ⟨?_, rfl⟩
  simp only [plotBit, FrameBuffer.pixel_setPixel]
  split
  · rename_i h; simp only [FrameBuffer.pixel, h.1, h.2]
  · rfl

theorem FrameBuffer.pixel_clear (r c : Nat) : FrameBuffer.pixel FrameBuffer.clear r c = false := by
  simp [FrameBuffer.pixel, FrameBuffer.clear]

/-- Two framebuffers with the same pixels are the same framebuffer. -/
theorem FrameBuffer.ext_pixel {f g : FrameBuffer}
    (h : ∀ r < 32, ∀ c < 64, FrameBuffer.pixel f r c = FrameBuffer.pixel g r c) : f = g := by
  apply Vector.ext
  intro r hr
  apply Vector.ext
  intro c hc
  simpa [FrameBuffer.pixel, Nat.mod_eq_of_lt hr, Nat.mod_eq_of_lt hc] using h r hr c hc

end Sys2Proof.Machine
end

