-- ==== Sys2Proof/Laws/Pacing.lean ====
section
/-! SUPPORT. One lemma per operation of the pacing loop: what polling, ticking and finishing an iteration
leave alone, and what the tick does to the accumulator (60_exceptions.md rules R206, R210, R216). -/

namespace Sys2Proof.Machine

variable (s : State)

/-- A key-down event writes the key, and the waited-for register and the mode when a wait is on. -/
theorem State.keyDown_cases (k : Key) :
    (∃ x, s.mode = .suspended x ∧ s.keyDown k = (s.setKey k true).resume x k) ∨
    ((∀ x, s.mode ≠ .suspended x) ∧ s.keyDown k = s.setKey k true) := by
  unfold State.keyDown
  cases h : s.mode <;> simp

@[simp] theorem State.keyDown_frame (k : Key) :
    (s.keyDown k).i = s.i ∧ (s.keyDown k).pc = s.pc ∧ (s.keyDown k).sp = s.sp ∧
    (s.keyDown k).stack = s.stack ∧ (s.keyDown k).dt = s.dt ∧ (s.keyDown k).st = s.st ∧
    (s.keyDown k).mem = s.mem ∧ (s.keyDown k).fb = s.fb ∧ (s.keyDown k).acc = s.acc ∧
    (s.keyDown k).tone = s.tone ∧ (s.keyDown k).frames = s.frames ∧ (s.keyDown k).diag = s.diag ∧
    (s.keyDown k).rnd = s.rnd ∧ (s.keyDown k).iteration = s.iteration ∧
    (s.keyDown k).cfg = s.cfg := by
  rcases s.keyDown_cases k with ⟨x, -, h⟩ | ⟨-, h⟩ <;> simp [h]

@[simp] theorem State.keyUp_eq (k : Key) : s.keyUp k = s.setKey k false := rfl

/-- The poll phase never writes pc, I, the stack, a timer, memory, the framebuffer or a port (R206). -/
@[simp] theorem State.poll_frame (es : List InputEvent) :
    (s.poll es).i = s.i ∧ (s.poll es).pc = s.pc ∧ (s.poll es).sp = s.sp ∧
    (s.poll es).stack = s.stack ∧ (s.poll es).dt = s.dt ∧ (s.poll es).st = s.st ∧
    (s.poll es).mem = s.mem ∧ (s.poll es).fb = s.fb ∧ (s.poll es).acc = s.acc ∧
    (s.poll es).frames = s.frames ∧ (s.poll es).diag = s.diag ∧ (s.poll es).rnd = s.rnd ∧
    (s.poll es).iteration = s.iteration ∧ (s.poll es).cfg = s.cfg := by
  induction es generalizing s with
  | nil => simp [State.poll]
  | cons e es ih =>
    cases e with
    | keyDown k => simpa [State.poll] using ih (s.keyDown k)
    | keyUp k   => simpa [State.poll] using ih (s.keyUp k)
    | quit      => simp [State.poll]

/-- A poll that ends in a terminal mode has turned tone off, if it did not start in one. -/
theorem State.poll_terminal (es : List InputEvent) (h : s.mode.isTerminal = false)
    (ht : (s.poll es).mode.isTerminal = true) : (s.poll es).tone = false := by
  induction es generalizing s with
  | nil => simp_all [State.poll]
  | cons e es ih =>
    cases e with
    | keyDown k =>
      refine ih (s.keyDown k) ?_ ht
      rcases s.keyDown_cases k with ⟨x, -, hk⟩ | ⟨-, hk⟩
      · simp [hk, Mode.isTerminal]
      · simpa [hk] using h
    | keyUp k   => exact ih (s.keyUp k) (by simpa using h) ht
    | quit      => simp [State.poll]

/-- A poll takes its events one after the other: a part without a Quit is polled first (R210). -/
theorem State.poll_append {before : List InputEvent} (after : List InputEvent) (h : .quit ∉ before) :
    s.poll (before ++ after) = (s.poll before).poll after := by
  induction before generalizing s with
  | nil => rfl
  | cons e es ih =>
    simp only [List.mem_cons, not_or] at h
    cases e with
    | keyDown k => exact ih _ h.2
    | keyUp k   => exact ih _ h.2
    | quit      => exact absurd rfl h.1

/-! ### Ticks -/

/-- The whole ticks of a non-negative time, and the remainder below one tick (R216). -/
theorem wholeTicks_spec {time : Rat} (h : 0 ≤ time) :
    0 ≤ time - wholeTicks time * tickLength ∧ time - wholeTicks time * tickLength < tickLength := by
  have hq : time / tickLength = time * 60 := by simp [tickLength]
  have hf : (((time * 60).floor.toNat : Nat) : Int) = (time * 60).floor :=
    Int.toNat_of_nonneg (Rat.le_floor_iff.mpr (by simpa using by linarith))
  have hf' : (((time * 60).floor.toNat : Nat) : Rat) = ((time * 60).floor : Rat) := by exact_mod_cast hf
  have h1 : ((time * 60).floor : Rat) ≤ time * 60 := Rat.floor_le _
  have h2 : time * 60 < ((time * 60).floor : Rat) + 1 := by
    have := @Rat.lt_floor (time * 60); linarith
  unfold wholeTicks
  rw [hq, hf']
  unfold tickLength
  constructor <;> linarith

/-- The whole ticks of a time are the one number of sixtieths it lies above (R216). -/
theorem wholeTicks_eq {time : Rat} {k : Nat} (h : (k : Rat) / 60 ≤ time) (h' : time < ((k : Rat) + 1) / 60) :
    wholeTicks time = k := by
  have hk : (0 : Rat) ≤ k := Nat.cast_nonneg k
  obtain ⟨w1, w2⟩ := wholeTicks_spec (time := time) (by linarith)
  unfold tickLength at w1 w2
  have a1 : (wholeTicks time : Rat) < k + 1 := by linarith
  have a2 : (k : Rat) < wholeTicks time + 1 := by linarith
  exact le_antisymm (Nat.lt_succ_iff.mp (by exact_mod_cast a1)) (Nat.lt_succ_iff.mp (by exact_mod_cast a2))

/-- A tick writes acc, DT and ST and nothing else. -/
@[simp] theorem State.timerTick_frame (e : ℚ≥0) :
    (s.timerTick e).v = s.v ∧ (s.timerTick e).i = s.i ∧ (s.timerTick e).pc = s.pc ∧
    (s.timerTick e).sp = s.sp ∧ (s.timerTick e).stack = s.stack ∧ (s.timerTick e).mem = s.mem ∧
    (s.timerTick e).fb = s.fb ∧ (s.timerTick e).key = s.key ∧ (s.timerTick e).mode = s.mode ∧
    (s.timerTick e).tone = s.tone ∧ (s.timerTick e).frames = s.frames ∧
    (s.timerTick e).diag = s.diag ∧ (s.timerTick e).rnd = s.rnd ∧
    (s.timerTick e).iteration = s.iteration ∧ (s.timerTick e).cfg = s.cfg := by
  simp [State.timerTick]

theorem State.timerTick_acc {s : State} (e : ℚ≥0) (h : 0 ≤ s.acc) :
    0 ≤ (s.timerTick e).acc ∧ (s.timerTick e).acc < tickLength :=
  wholeTicks_spec (add_nonneg h e.2)

/-- The conditional tick phase is a tick, or nothing at all (R218). -/
theorem State.tickPhase_cases (e : ℚ≥0) :
    (s.ticksFrozen = true ∧ s.tickPhase e = s) ∨
    (s.ticksFrozen = false ∧ s.tickPhase e = s.timerTick e) := by
  unfold State.tickPhase
  cases h : s.ticksFrozen <;> simp

theorem decay_toNat (b : Byte) (k : Nat) : (decay b k).toNat = b.toNat - k := by
  have := b.isLt
  simp only [decay, BitVec.toNat_ofNat]; omega

/-! ### One iteration -/

/-- How an iteration ends after its instruction: at once in a terminal mode, in the poll phase on Quit, or
through tick and tone (R210). -/
theorem State.finish_cases (inp : Inputs) :
    (s.mode.isTerminal = true ∧ s.finish inp = s) ∨
    (s.mode.isTerminal = false ∧ (s.poll inp.events).mode.isTerminal = true ∧
      s.finish inp = s.poll inp.events) ∨
    (s.mode.isTerminal = false ∧ (s.poll inp.events).mode.isTerminal = false ∧
      s.finish inp = ((s.poll inp.events).tickPhase inp.elapsed).toneUpdate) := by
  unfold State.finish
  cases h : s.mode.isTerminal <;> cases h' : (s.poll inp.events).mode.isTerminal <;> simp [h']

/-- Everything an iteration can be: an instruction step that finishes, a waiting iteration, or a terminal
state that stays (R210, R212, R213). -/
theorem iterate_cases {inp : Inputs} {s t : State} (h : iterate inp s = .next t) :
    (s.mode = .running ∧ ∃ u, cpuStep (s.begin inp) = .next u ∧ t = u.finish inp) ∨
    ((∃ x, s.mode = .suspended x) ∧ t = (s.begin inp).finish inp) ∨
    (s.mode.isTerminal = true ∧ t = s) := by
  unfold iterate at h
  split at h
  · rename_i hm
    split at h
    · rename_i u hu; exact .inl ⟨hm, u, hu, (Host.Outcome.next.inj h).symm⟩
    · cases h
    · cases h
  · rename_i x hm; exact .inr (.inl ⟨⟨x, hm⟩, (Host.Outcome.next.inj h).symm⟩)
  · rename_i hm; exact .inr (.inr ⟨by simp [hm, Mode.isTerminal], (Host.Outcome.next.inj h).symm⟩)
  · rename_i hm; exact .inr (.inr ⟨by simp [hm, Mode.isTerminal], (Host.Outcome.next.inj h).symm⟩)

end Sys2Proof.Machine
end

