-- ==== Sys2Proof/Laws/PerInstr.lean ====
section
/-! SUPPORT. The layout of the encoder's words (30_encoding.md rule R72) and a family of statements made per
instruction: each instruction is well formed and its word lies in its own row of the opcode map (R75, R76). -/

namespace Sys2Proof

/-! ### The formats as fields side by side (R72) -/

/-- A number split at a bit position is its two parts side by side. -/
theorem ofNat_append {m n : Nat} (a b : Nat) (ha : a < 2 ^ m) (hb : b < 2 ^ n) :
    BitVec.ofNat (m + n) (a * 2 ^ n + b) = BitVec.ofNat m a ++ BitVec.ofNat n b := by
  apply BitVec.eq_of_toNat_eq
  have hlt : a * 2 ^ n + b < 2 ^ (m + n) := by
    rw [Nat.pow_add]
    calc a * 2 ^ n + b < a * 2 ^ n + 2 ^ n := by omega
      _ = (a + 1) * 2 ^ n := by ring
      _ ≤ 2 ^ m * 2 ^ n := Nat.mul_le_mul_right _ ha
  rw [BitVec.toNat_append, BitVec.toNat_ofNat, BitVec.toNat_ofNat, BitVec.toNat_ofNat,
    Nat.mod_eq_of_lt hlt, Nat.mod_eq_of_lt ha, Nat.mod_eq_of_lt hb,
    ← Nat.shiftLeft_add_eq_or_of_lt hb, Nat.shiftLeft_eq]

theorem encodeA_layout (op : Nat) (nnn : Addr) (hop : op < 16) :
    encodeA op nnn = BitVec.ofNat 4 op ++ nnn := by
  simpa [encodeA] using ofNat_append (m := 4) (n := 12) op nnn.toNat hop nnn.isLt

theorem encodeXK_layout (op : Nat) (x : Reg) (kk : Byte) (hop : op < 16) :
    encodeXK op x kk = BitVec.ofNat 4 op ++ (BitVec.ofNat 4 x.val ++ kk) := by
  have hx := x.isLt
  have hk := kk.isLt
  have h := ofNat_append (m := 4) (n := 12) op (x.val * 256 + kk.toNat) hop (by omega)
  have h' : BitVec.ofNat 12 (x.val * 256 + kk.toNat) = BitVec.ofNat 4 x.val ++ BitVec.ofNat 8 kk.toNat :=
    ofNat_append (m := 4) (n := 8) x.val kk.toNat hx hk
  rw [h'] at h
  simpa [encodeXK, Nat.add_assoc] using h

theorem encodeX_layout (op : Nat) (x : Reg) (ff : Nat) (hop : op < 16) (hff : ff < 256) :
    encodeX op x ff = BitVec.ofNat 4 op ++ (BitVec.ofNat 4 x.val ++ BitVec.ofNat 8 ff) := by
  have h := encodeXK_layout op x (BitVec.ofNat 8 ff) hop
  simpa [encodeXK, encodeX, Nat.mod_eq_of_lt hff] using h

theorem encodeXY_layout (op : Nat) (x y : Reg) (f : Nat) (hop : op < 16) (hf : f < 16) :
    encodeXY op x y f =
      BitVec.ofNat 4 op ++ (BitVec.ofNat 4 x.val ++ (BitVec.ofNat 4 y.val ++ BitVec.ofNat 4 f)) := by
  have hy := y.isLt
  have h := encodeXK_layout op x (BitVec.ofNat 8 (y.val * 16 + f)) hop
  have h' : BitVec.ofNat 8 (y.val * 16 + f) = BitVec.ofNat 4 y.val ++ BitVec.ofNat 4 f :=
    ofNat_append (m := 4) (n := 4) y.val f hy hf
  rw [← h', ← h]
  simp only [encodeXY, encodeXK, BitVec.toNat_ofNat]
  rw [Nat.mod_eq_of_lt (by omega), Nat.add_assoc]

/-! ### A row selects a word by the row's fixed nibbles (R76) -/

theorem and_F (n : BitVec 4) : n &&& 0xF#4 = n := BitVec.and_allOnes

theorem and_FF (b : BitVec 8) : b &&& 0xFF#8 = b := BitVec.and_allOnes

theorem selects_F000 (op : BitVec 4) (rest : BitVec 12) :
    OpcodeRow.selects ⟨0xF000, op ++ 0#12⟩ (op ++ rest) = true := by
  rw [OpcodeRow.selects, show (0xF000 : Word) = 0xF#4 ++ 0#12 from rfl, beq_iff_eq,
    BitVec.and_append, and_F]
  simp

theorem selects_F0FF (op x : BitVec 4) (ff : BitVec 8) :
    OpcodeRow.selects ⟨0xF0FF, op ++ (0#4 ++ ff)⟩ (op ++ (x ++ ff)) = true := by
  rw [OpcodeRow.selects, show (0xF0FF : Word) = 0xF#4 ++ (0#4 ++ 0xFF#8) from rfl, beq_iff_eq,
    BitVec.and_append, BitVec.and_append, and_F, and_FF]
  simp

theorem selects_F00F (op x y f : BitVec 4) :
    OpcodeRow.selects ⟨0xF00F, op ++ (0#4 ++ (0#4 ++ f))⟩ (op ++ (x ++ (y ++ f))) = true := by
  rw [OpcodeRow.selects, show (0xF00F : Word) = 0xF#4 ++ (0#4 ++ (0#4 ++ 0xF#4)) from rfl, beq_iff_eq,
    BitVec.and_append, BitVec.and_append, BitVec.and_append, and_F, and_F]
  simp

end Sys2Proof

namespace Sys2Proof.Laws.EncodesIntoRow

/-- The instruction is well formed, and its word is selected by its row. -/
def Statement (i : Instr) : Prop := i.wellFormed = true ∧ i.row.selects (encode i) = true


theorem halt : Statement .halt := ⟨rfl, by decide⟩

theorem cls : Statement .cls := ⟨rfl, by decide⟩

theorem ret : Statement .ret := ⟨rfl, by decide⟩

theorem jp (nnn : Addr) : Statement (.jp nnn) := by
  refine ⟨by simp [Instr.wellFormed, addrFits, nnn.isLt], ?_⟩
  rw [encode, encodeA_layout _ _ (by decide)]; exact selects_F000 _ _

theorem call (nnn : Addr) : Statement (.call nnn) := by
  refine ⟨by simp [Instr.wellFormed, addrFits, nnn.isLt], ?_⟩
  rw [encode, encodeA_layout _ _ (by decide)]; exact selects_F000 _ _

theorem seImm (x : Reg) (kk : Byte) : Statement (.seImm x kk) := by
  refine ⟨by simp [Instr.wellFormed, regFits, byteFits, kk.isLt], ?_⟩
  rw [encode, encodeXK_layout _ _ _ (by decide)]; exact selects_F000 _ _

theorem sneImm (x : Reg) (kk : Byte) : Statement (.sneImm x kk) := by
  refine ⟨by simp [Instr.wellFormed, regFits, byteFits, kk.isLt], ?_⟩
  rw [encode, encodeXK_layout _ _ _ (by decide)]; exact selects_F000 _ _

theorem seReg (x y : Reg) : Statement (.seReg x y) := by
  refine ⟨by simp [Instr.wellFormed, regFits], ?_⟩
  rw [encode, encodeXY_layout _ _ _ _ (by decide) (by decide)]; exact selects_F00F _ _ _ _

theorem sneReg (x y : Reg) : Statement (.sneReg x y) := by
  refine ⟨by simp [Instr.wellFormed, regFits], ?_⟩
  rw [encode, encodeXY_layout _ _ _ _ (by decide) (by decide)]; exact selects_F00F _ _ _ _

theorem ldImm (x : Reg) (kk : Byte) : Statement (.ldImm x kk) := by
  refine ⟨by simp [Instr.wellFormed, regFits, byteFits, kk.isLt], ?_⟩
  rw [encode, encodeXK_layout _ _ _ (by decide)]; exact selects_F000 _ _

theorem addImm (x : Reg) (kk : Byte) : Statement (.addImm x kk) := by
  refine ⟨by simp [Instr.wellFormed, regFits, byteFits, kk.isLt], ?_⟩
  rw [encode, encodeXK_layout _ _ _ (by decide)]; exact selects_F000 _ _

theorem ldReg (x y : Reg) : Statement (.ldReg x y) := by
  refine ⟨by simp [Instr.wellFormed, regFits], ?_⟩
  rw [encode, encodeXY_layout _ _ _ _ (by decide) (by decide)]; exact selects_F00F _ _ _ _

theorem orReg (x y : Reg) : Statement (.orReg x y) := by
  refine ⟨by simp [Instr.wellFormed, regFits], ?_⟩
  rw [encode, encodeXY_layout _ _ _ _ (by decide) (by decide)]; exact selects_F00F _ _ _ _

theorem andReg (x y : Reg) : Statement (.andReg x y) := by
  refine ⟨by simp [Instr.wellFormed, regFits], ?_⟩
  rw [encode, encodeXY_layout _ _ _ _ (by decide) (by decide)]; exact selects_F00F _ _ _ _

theorem xorReg (x y : Reg) : Statement (.xorReg x y) := by
  refine ⟨by simp [Instr.wellFormed, regFits], ?_⟩
  rw [encode, encodeXY_layout _ _ _ _ (by decide) (by decide)]; exact selects_F00F _ _ _ _

theorem addReg (x y : Reg) : Statement (.addReg x y) := by
  refine ⟨by simp [Instr.wellFormed, regFits], ?_⟩
  rw [encode, encodeXY_layout _ _ _ _ (by decide) (by decide)]; exact selects_F00F _ _ _ _

theorem sub (x y : Reg) : Statement (.sub x y) := by
  refine ⟨by simp [Instr.wellFormed, regFits], ?_⟩
  rw [encode, encodeXY_layout _ _ _ _ (by decide) (by decide)]; exact selects_F00F _ _ _ _

theorem shr (x y : Reg) : Statement (.shr x y) := by
  refine ⟨by simp [Instr.wellFormed, regFits], ?_⟩
  rw [encode, encodeXY_layout _ _ _ _ (by decide) (by decide)]; exact selects_F00F _ _ _ _

theorem subn (x y : Reg) : Statement (.subn x y) := by
  refine ⟨by simp [Instr.wellFormed, regFits], ?_⟩
  rw [encode, encodeXY_layout _ _ _ _ (by decide) (by decide)]; exact selects_F00F _ _ _ _

theorem shl (x y : Reg) : Statement (.shl x y) := by
  refine ⟨by simp [Instr.wellFormed, regFits], ?_⟩
  rw [encode, encodeXY_layout _ _ _ _ (by decide) (by decide)]; exact selects_F00F _ _ _ _

theorem ldI (nnn : Addr) : Statement (.ldI nnn) := by
  refine ⟨by simp [Instr.wellFormed, addrFits, nnn.isLt], ?_⟩
  rw [encode, encodeA_layout _ _ (by decide)]; exact selects_F000 _ _

theorem jpV0 (nnn : Addr) : Statement (.jpV0 nnn) := by
  refine ⟨by simp [Instr.wellFormed, addrFits, nnn.isLt], ?_⟩
  rw [encode, encodeA_layout _ _ (by decide)]; exact selects_F000 _ _

theorem rnd (x : Reg) (kk : Byte) : Statement (.rnd x kk) := by
  refine ⟨by simp [Instr.wellFormed, regFits, byteFits, kk.isLt], ?_⟩
  rw [encode, encodeXK_layout _ _ _ (by decide)]; exact selects_F000 _ _

theorem drw (x y : Reg) (n : Nibble) : Statement (.drw x y n) := by
  refine ⟨by simp [Instr.wellFormed, regFits, nibbleFits, n.isLt], ?_⟩
  rw [encode, encodeXY_layout _ _ _ _ (by decide) n.isLt]; exact selects_F000 _ _

theorem skp (x : Reg) : Statement (.skp x) := by
  refine ⟨by simp [Instr.wellFormed, regFits], ?_⟩
  rw [encode, encodeX_layout _ _ _ (by decide) (by decide)]; exact selects_F0FF _ _ _

theorem sknp (x : Reg) : Statement (.sknp x) := by
  refine ⟨by simp [Instr.wellFormed, regFits], ?_⟩
  rw [encode, encodeX_layout _ _ _ (by decide) (by decide)]; exact selects_F0FF _ _ _

theorem ldVxDT (x : Reg) : Statement (.ldVxDT x) := by
  refine ⟨by simp [Instr.wellFormed, regFits], ?_⟩
  rw [encode, encodeX_layout _ _ _ (by decide) (by decide)]; exact selects_F0FF _ _ _

theorem ldVxK (x : Reg) : Statement (.ldVxK x) := by
  refine ⟨by simp [Instr.wellFormed, regFits], ?_⟩
  rw [encode, encodeX_layout _ _ _ (by decide) (by decide)]; exact selects_F0FF _ _ _

theorem ldDTVx (x : Reg) : Statement (.ldDTVx x) := by
  refine ⟨by simp [Instr.wellFormed, regFits], ?_⟩
  rw [encode, encodeX_layout _ _ _ (by decide) (by decide)]; exact selects_F0FF _ _ _

theorem ldSTVx (x : Reg) : Statement (.ldSTVx x) := by
  refine ⟨by simp [Instr.wellFormed, regFits], ?_⟩
  rw [encode, encodeX_layout _ _ _ (by decide) (by decide)]; exact selects_F0FF _ _ _

theorem addI (x : Reg) : Statement (.addI x) := by
  refine ⟨by simp [Instr.wellFormed, regFits], ?_⟩
  rw [encode, encodeX_layout _ _ _ (by decide) (by decide)]; exact selects_F0FF _ _ _

theorem ldF (x : Reg) : Statement (.ldF x) := by
  refine ⟨by simp [Instr.wellFormed, regFits], ?_⟩
  rw [encode, encodeX_layout _ _ _ (by decide) (by decide)]; exact selects_F0FF _ _ _

theorem ldB (x : Reg) : Statement (.ldB x) := by
  refine ⟨by simp [Instr.wellFormed, regFits], ?_⟩
  rw [encode, encodeX_layout _ _ _ (by decide) (by decide)]; exact selects_F0FF _ _ _

theorem storeRegs (x : Reg) : Statement (.storeRegs x) := by
  refine ⟨by simp [Instr.wellFormed, regFits], ?_⟩
  rw [encode, encodeX_layout _ _ _ (by decide) (by decide)]; exact selects_F0FF _ _ _

theorem loadRegs (x : Reg) : Statement (.loadRegs x) := by
  refine ⟨by simp [Instr.wellFormed, regFits], ?_⟩
  rw [encode, encodeX_layout _ _ _ (by decide) (by decide)]; exact selects_F0FF _ _ _

end Sys2Proof.Laws.EncodesIntoRow
end

