-- ==== Sys2Proof/Tests/Slice0.lean ====
section
/-! SUPPORT. The model's own tests. Expected values are those of spec/95_test_vectors.md (the vector's id is
in the test's comment) or are worked out by hand from the rule named. -/

open Sys2Proof Sys2Proof.Machine

namespace Sys2Proof.Tests

/-! ### Well-formedness: an ill-formed term for each check -/

theorem test_reg_16_refused : regFits 16 = false ∧ regFits 15 = true := by decide
theorem test_nibble_16_refused : nibbleFits 16 = false ∧ nibbleFits 15 = true := by decide
theorem test_byte_256_refused : byteFits 256 = false ∧ byteFits 255 = true := by decide
theorem test_addr_4096_refused : addrFits 4096 = false ∧ addrFits 4095 = true := by decide
theorem test_image_3585_refused (b : Byte) :
    imageFits (List.replicate 3585 b) = false ∧ imageFits (List.replicate 3584 b) = true := by
  unfold imageFits; rw [List.length_replicate, List.length_replicate]; decide

/-! ### Decoding: one word per constructor, written out from 30_encoding.md -/

theorem test_decode_halt : decode 0x0000 = .ok .halt := by decide
theorem test_decode_cls : decode 0x00E0 = .ok .cls := by decide
theorem test_decode_ret : decode 0x00EE = .ok .ret := by decide
theorem test_decode_jp : decode 0x1204 = .ok (.jp 0x204) := by decide
theorem test_decode_call : decode 0x2FFE = .ok (.call 0xFFE) := by decide
theorem test_decode_seImm : decode 0x3100 = .ok (.seImm 1 0x00) := by decide
theorem test_decode_sneImm : decode 0x4206 = .ok (.sneImm 2 0x06) := by decide
theorem test_decode_seReg : decode 0x5AB0 = .ok (.seReg 0xA 0xB) := by decide
theorem test_decode_sneReg : decode 0x9010 = .ok (.sneReg 0 1) := by decide
theorem test_decode_ldImm : decode 0x6FA5 = .ok (.ldImm 0xF 0xA5) := by decide
theorem test_decode_addImm : decode 0x71FF = .ok (.addImm 1 0xFF) := by decide
theorem test_decode_ldReg : decode 0x8120 = .ok (.ldReg 1 2) := by decide
theorem test_decode_orReg : decode 0x8121 = .ok (.orReg 1 2) := by decide
theorem test_decode_andReg : decode 0x8122 = .ok (.andReg 1 2) := by decide
theorem test_decode_xorReg : decode 0x8123 = .ok (.xorReg 1 2) := by decide
theorem test_decode_addReg : decode 0x8124 = .ok (.addReg 1 2) := by decide
theorem test_decode_sub : decode 0x8125 = .ok (.sub 1 2) := by decide
theorem test_decode_shr : decode 0x8126 = .ok (.shr 1 2) := by decide
theorem test_decode_subn : decode 0x8127 = .ok (.subn 1 2) := by decide
theorem test_decode_shl : decode 0x812E = .ok (.shl 1 2) := by decide
theorem test_decode_ldI : decode 0xA300 = .ok (.ldI 0x300) := by decide
theorem test_decode_jpV0 : decode 0xBFFF = .ok (.jpV0 0xFFF) := by decide
theorem test_decode_rnd : decode 0xC30F = .ok (.rnd 3 0x0F) := by decide
theorem test_decode_drw : decode 0xD12F = .ok (.drw 1 2 0xF) := by decide
theorem test_decode_skp : decode 0xE39E = .ok (.skp 3) := by decide
theorem test_decode_sknp : decode 0xE3A1 = .ok (.sknp 3) := by decide
theorem test_decode_ldVxDT : decode 0xF207 = .ok (.ldVxDT 2) := by decide
theorem test_decode_ldVxK : decode 0xF10A = .ok (.ldVxK 1) := by decide
theorem test_decode_ldDTVx : decode 0xF015 = .ok (.ldDTVx 0) := by decide
theorem test_decode_ldSTVx : decode 0xF018 = .ok (.ldSTVx 0) := by decide
theorem test_decode_addI : decode 0xF01E = .ok (.addI 0) := by decide
theorem test_decode_ldF : decode 0xF229 = .ok (.ldF 2) := by decide
theorem test_decode_ldB : decode 0xF033 = .ok (.ldB 0) := by decide
theorem test_decode_storeRegs : decode 0xF255 = .ok (.storeRegs 2) := by decide
theorem test_decode_loadRegs : decode 0xFF65 = .ok (.loadRegs 0xF) := by decide

/-- Vectors U1 to U6: one unrecognised word of each group, rejected by its name. -/
theorem test_decode_rejects :
    decode 0x5011 = .error .group5 ∧ decode 0x9011 = .error .group9 ∧ decode 0x8008 = .error .group8 ∧
    decode 0xE000 = .error .groupE ∧ decode 0xF0FF = .error .groupF ∧ decode 0x0123 = .error .group0 := by
  decide

theorem test_decode_truncated : decodeBytes [0x60] = .error .truncated := by decide

/-- The bytes behind an instruction are handed back (R70). -/
theorem test_decode_rest : decodeBytes [0x60, 0x0A, 0x61] = .ok (.ldImm 0 0x0A, [0x61]) := by decide

theorem test_tableWord : decodeTableWord 16 0xD015 = some (.drw 0 1 5) ∧ decodeTableWord 16 0x5011 = none := by
  decide

/-- The 35 rows are pairwise disjoint: two rows differ in a nibble fixed in both (R76). -/
theorem test_rows_disjoint :
    opcodeRows.Pairwise fun a b => (a.mask &&& b.mask) &&& (a.fixed ^^^ b.fixed) ≠ 0 := by
  decide +kernel

/-! ### Running one word -/

/-- A view of the next state; none where the step stops. -/
def view {α : Type} (o : Host.Outcome State Fault Refusal) (f : State → α) : Option α :=
  match o with
  | .next t => some (f t)
  | _       => none

/-- Inputs with no time passed, no event and a zero byte. -/
def quiet : Inputs := ⟨0, [], 0⟩

/-- One iteration of a state on the word `w` placed at its pc. -/
def run (w : Nat) (s : State) : Host.Outcome State Fault Refusal := iterate quiet (s.placeInstr 16 w)

/-- The reset state with V0 and V1. -/
def regs (a b : Byte) : State := (State.reset.setV 0 a).setV 1 b

/-! ### Control (vectors C1 to C13) -/

theorem test_C1 : view (run 0x0000 (State.reset.setPc 0x206)) (fun t => (t.mode, t.pc)) =
    some (.halted .haltWord, 0x208) := by decide
theorem test_C3_odd_target : view (run 0x1205 State.reset) (·.pc) = some 0x205 := by decide
theorem test_C5_call_at_FFE : view (run 0x2300 (State.reset.setPc 0xFFE))
    (fun t => (t.stack[0], t.sp, t.pc)) = some (0x000, 1, 0x300) := by decide
theorem test_C6_overflow : view (run 0x2300 { State.reset with sp := 16 })
    (fun t => (t.mode, t.sp, t.pc)) = some (.fatal .stackOverflow 0x2300 0x200, 16, 0x202) := by decide
theorem test_C7_ret : view (run 0x00EE { State.reset with sp := 1, stack := State.reset.stack.set 0 0x20C })
    (fun t => (t.sp, t.pc, t.stack[0])) = some (0, 0x20C, 0x20C) := by decide
theorem test_C8_underflow : view (run 0x00EE State.reset) (fun t => (t.mode, t.sp, t.pc)) =
    some (.fatal .stackUnderflow 0x00EE 0x200, 0, 0x202) := by decide
theorem test_C10_jpV0_wraps : view (run 0xBFFF (regs 0xFF 0)) (·.pc) = some 0x0FE := by decide
theorem test_C11_advance_wraps : view (run 0x6001 (State.reset.setPc 0xFFE))
    (fun t => (t.getV 0, t.pc)) = some (1, 0x000) := by decide
theorem test_C13_fetch_wraps : view (run 0x6107 (State.reset.setPc 0xFFF))
    (fun t => (t.getV 1, t.pc, t.readByte 0xFFF, t.readByte 0)) = some (7, 0x001, 0x61, 0x07) := by decide

/-! ### Skips (vectors S1 to S6) -/

theorem test_S1 : view (run 0x3042 (regs 0x42 0)) (·.pc) = some 0x204 := by decide
theorem test_S2 : view (run 0x3042 (regs 0x41 0)) (·.pc) = some 0x202 := by decide
theorem test_S3 : view (run 0x4042 (regs 0x41 0)) (·.pc) = some 0x204 := by decide
theorem test_S4 : view (run 0x5010 (regs 7 7)) (·.pc) = some 0x204 := by decide
theorem test_S5 : view (run 0x9010 (regs 7 7)) (·.pc) = some 0x202 := by decide
theorem test_S6_wraps : view (run 0x3000 (State.reset.setPc 0xFFC)) (·.pc) = some 0x000 := by decide

/-! ### Unrecognised words (vectors U1, U7) -/

theorem test_U1 : view (run 0x5011 (regs 7 7)) (fun t => (t.pc, t.diag, t.mode)) =
    some (0x202, [⟨0x5011, 0x200⟩], .running) := by decide
theorem test_U7_refused :
    run 0x5011 { State.reset with cfg := { defaultConfig with decode := .refuse } } =
      .refused (.unrecognisedWord 0x5011 0x200) := rfl

/-! ### Register ALU (vectors A1 to A31) -/

theorem test_A1 : view (run 0x600A State.reset) (·.getV 0) = some 0x0A := by decide
theorem test_A2 : view (run 0x7001 ((regs 0xFF 0).setV VF 9)) (fun t => (t.getV 0, t.getV VF)) =
    some (0, 9) := by decide
theorem test_A3 : view (run 0x8010 (regs 0 0x33)) (·.getV 0) = some 0x33 := by decide
theorem test_A4 : view (run 0x8011 ((regs 0xF0 0x3C).setV VF 7)) (fun t => (t.getV 0, t.getV VF)) =
    some (0xFC, 7) := by decide
theorem test_A5 : view (run 0x8012 (regs 0xF0 0x3C)) (·.getV 0) = some 0x30 := by decide
theorem test_A6 : view (run 0x8013 (regs 0xF0 0x3C)) (·.getV 0) = some 0xCC := by decide
theorem test_A9 : view (run 0x8014 (regs 0xFF 0x01)) (fun t => (t.getV 0, t.getV VF)) = some (0, 1) := by
  decide
theorem test_A13_flag_wins : view (run 0x8F14 ((regs 0 1).setV VF 0xFF)) (·.getV VF) = some 1 := by decide
theorem test_A14 : view (run 0x8015 (regs 3 5)) (fun t => (t.getV 0, t.getV VF)) = some (0xFE, 0) := by
  decide
theorem test_A15_equal : view (run 0x8015 (regs 5 5)) (fun t => (t.getV 0, t.getV VF)) = some (0, 1) := by
  decide
theorem test_A19_shifts_Vy : view (run 0x8016 (regs 0xFF 0x05)) (fun t => (t.getV 0, t.getV VF)) =
    some (0x02, 1) := by decide
theorem test_A22_source_VF : view (run 0x80F6 (State.reset.setV VF 3)) (fun t => (t.getV 0, t.getV VF)) =
    some (1, 1) := by decide
theorem test_A23 : view (run 0x8017 (regs 3 5)) (fun t => (t.getV 0, t.getV VF)) = some (2, 1) := by decide
theorem test_A24 : view (run 0x8017 (regs 5 3)) (fun t => (t.getV 0, t.getV VF)) = some (0xFE, 0) := by
  decide
theorem test_A26 : view (run 0x801E (regs 0 0x81)) (fun t => (t.getV 0, t.getV VF)) = some (2, 1) := by
  decide
theorem test_A28_flag_wins : view (run 0x8F1E (regs 0 0x40)) (·.getV VF) = some 0 := by decide
theorem test_A29_draw_AB : view (iterate ⟨0, [], 0xAB⟩ (State.reset.placeInstr 16 0xC00F)) (·.getV 0) =
    some 0x0B := by decide

/-! ### Index and memory (vectors M1 to M16) -/

theorem test_M1 : view (run 0xA300 State.reset) (·.i) = some 0x300 := by decide
theorem test_M2 : view (run 0xF01E ((regs 1 0).setI 0xFFF)) (·.i) = some 0x1000 := by decide
theorem test_M3_wraps : view (run 0xF01E ((regs 2 0).setI 0xFFFF)) (·.i) = some 0x0001 := by decide
theorem test_M6_unmasked : view (run 0xF229 (State.reset.setV 2 0xFF)) (·.i) = some 0x4FB := by decide
theorem test_M11_wraps : view (run 0xF033 ((regs 123 0).setI 0xFFF))
    (fun t => (t.readByte 0xFFF, t.readByte 0, t.readByte 1, t.i)) = some (1, 2, 3, 0xFFF) := by decide
theorem test_M12_masked : view (run 0xF033 ((regs 42 0).setI 0x1300))
    (fun t => (t.readByte 0x300, t.readByte 0x301, t.readByte 0x302)) = some (0, 4, 2) := by decide
theorem test_M13 : view (run 0xF255 ((((regs 1 2).setV 2 3).setV 3 4).setI 0x300))
    (fun t => (t.mem.drop 2, t.i)) = some ([(0x300, 1), (0x301, 2), (0x302, 3)], 0x300) := by decide
theorem test_M16_increment :
    view (run 0xF255 { (regs 1 2).setI 0x300 with cfg := { defaultConfig with blockI := .increment } })
      (·.i) = some 0x303 := by decide
theorem test_M14 : view (run 0xF265 ((State.reset.setI 0x300).storeBytes 0x300 [0, 1, 5, 9]))
    (fun t => (t.getV 0, t.getV 1, t.getV 2, t.getV 3)) = some (0, 1, 5, 0) := by decide
theorem test_M15 : view (run 0xFF65 ((State.reset.setI 0x300).writeByte 0x30F 0xAA))
    (fun t => (t.getV VF, t.i)) = some (0xAA, 0x300) := by decide

/-! ### Draw (vectors D1 to D10) -/

/-- The pixels of a list that are set. -/
def lit (f : FrameBuffer) (ps : List (Nat × Nat)) : List (Nat × Nat) :=
  ps.filter fun p => FrameBuffer.pixel f p.1 p.2

/-- The reset state with one pixel set, I at 0x300 and a sprite there. -/
def canvas (r c : Nat) (sprite : List Byte) : State :=
  ((State.reset.setFB (FrameBuffer.setPixel FrameBuffer.clear r c true)).setI 0x300).storeBytes 0x300 sprite

theorem test_D2_erase : view (run 0xD011 (canvas 0 0 [0x80]))
    (fun t => (lit t.fb [(0, 0), (0, 1)], t.getV VF)) = some ([], 1) := by decide
theorem test_D4_no_collision : view (run 0xD011 (canvas 0 0 [0x40]))
    (fun t => (lit t.fb [(0, 0), (0, 1), (0, 2)], t.getV VF)) = some ([(0, 0), (0, 1)], 0) := by decide
theorem test_D5_wraps_columns : view (run 0xD011 ((canvas 9 9 [0xFF]).setV 0 60))
    (fun t => lit t.fb [(0, 59), (0, 60), (0, 63), (0, 0), (0, 3), (0, 4)]) =
      some [(0, 60), (0, 63), (0, 0), (0, 3)] := by decide
theorem test_D6_wraps_rows : view (run 0xD014 ((canvas 9 9 [0x80, 0x80, 0x80, 0x80]).setV 1 30))
    (fun t => lit t.fb [(29, 0), (30, 0), (31, 0), (0, 0), (1, 0), (2, 0)]) =
      some [(30, 0), (31, 0), (0, 0), (1, 0)] := by decide
theorem test_D8_old_VF : view (run 0xDF01 (((canvas 9 9 [0x80]).setV VF 3).setV 0 4))
    (fun t => (lit t.fb [(4, 3), (3, 4)], t.getV VF)) = some ([(4, 3)], 0) := by decide
theorem test_W2_glyph_0 : view (run 0xD015 State.reset)
    (fun t => (lit t.fb [(0, 0), (0, 3), (0, 4), (1, 0), (1, 1), (1, 3), (4, 2)], t.frames.length)) =
      some ([(0, 0), (0, 3), (1, 0), (1, 3), (4, 2)], 1) := by decide
theorem test_D10_cls : view (run 0x00E0 ((canvas 3 3 []).setV VF 1))
    (fun t => (lit t.fb [(3, 3)], t.getV VF, t.frames.length)) = some ([], 1, 1) := by decide

/-! ### Keys and timers (vectors K1 to K14, T1 to T7) -/

theorem test_K1 : view (run 0xE39E (((State.reset.setKey 7 true).setV 3 7).setPc 0x220)) (·.pc) =
    some 0x224 := by decide
theorem test_K3 : view (run 0xE3A1 ((State.reset.setV 3 7).setPc 0x220)) (·.pc) = some 0x224 := by decide
theorem test_K4_masked : view (run 0xE39E ((State.reset.setKey 7 true).setV 3 0x17)) (·.pc) =
    some 0x204 := by decide
theorem test_K4_fault_policy :
    run 0xE39E { State.reset.setV 3 0x17 with cfg := { defaultConfig with keyIndex := .fault } } =
      .fault (.keyIndexOutOfRange 0x17) := rfl
theorem test_K5 : view (run 0xF207 (State.reset.setDT 48)) (·.getV 2) = some 48 := by decide

/-- A sixtieth, a tenth, a twelfth of a second. -/
def sec60 : ℚ≥0 := 1 / 60
def sec10 : ℚ≥0 := 1 / 10
def sec12 : ℚ≥0 := 1 / 12

theorem test_K7_same_iteration_tick :
    view (iterate ⟨sec60, [], 0⟩ ((regs 60 0).placeInstr 16 0xF015)) (·.dt) = some 59 := by decide +kernel
theorem test_K8_no_tone :
    view (iterate ⟨sec60, [], 0⟩ ((regs 1 0).placeInstr 16 0xF018)) (fun t => (t.st, t.tone)) =
      some (0, false) := by decide +kernel
theorem test_K9_tone : view (run 0xF018 (regs 30 0)) (fun t => (t.st, t.tone)) = some (30, true) := by
  decide +kernel
theorem test_K10_suspends : view (run 0xF10A State.reset) (fun t => (t.mode, t.pc, t.getV 1)) =
    some (.suspended 1, 0x202, 0) := by decide
theorem test_K11 : view (iterate ⟨0, [.keyDown 3, .keyDown 5], 0⟩ (State.reset.suspend 1))
    (fun t => (t.getV 1, t.getKey 3, t.getKey 5, t.mode)) = some (3, true, true, .running) := by decide
theorem test_K12 : view (iterate ⟨0, [.keyUp 3], 0⟩ ((State.reset.suspend 1).setKey 3 true))
    (fun t => (t.mode, t.getKey 3)) = some (.suspended 1, false) := by decide
theorem test_K13_quit : view (iterate ⟨sec60, [.quit, .keyDown 3], 0⟩ ((State.reset.suspend 1).setDT 9))
    (fun t => (t.mode, t.getV 1, t.getKey 3, t.dt)) = some (.halted .quit, 0, false, 9) := by decide
theorem test_T4 : view (iterate ⟨sec10, [], 0⟩ ((State.reset.setDT 10).suspend 0))
    (fun t => (t.dt, t.acc)) = some (4, 0) := by decide +kernel
theorem test_T6_saturates : view (iterate ⟨sec12, [], 0⟩ (((State.reset.setDT 3).setST 5).suspend 0))
    (fun t => (t.dt, t.st, t.tone)) = some (0, 0, false) := by decide +kernel
theorem test_freeze :
    view (iterate ⟨sec10, [], 0⟩
        { (State.reset.setDT 10).suspend 0 with cfg := { defaultConfig with timersDuringWait := .freeze } })
      (·.dt) = some 10 := by decide +kernel

/-! ### Reset and boot -/

/-- Glyphs 0, 9 and F of the default font, and the zeros behind it (R243, R244). -/
theorem test_font : (List.range 5).map State.reset.readByte = [0xF0, 0x90, 0x90, 0x90, 0xF0] ∧
    (List.range 5).map (fun j => State.reset.readByte (45 + j)) = [0xF0, 0x90, 0xF0, 0x10, 0xF0] ∧
    (List.range 6).map (fun j => State.reset.readByte (75 + j)) = [0xF0, 0x80, 0xF0, 0x80, 0x80, 0] := by
  decide

/-- The first instruction of a booted image is fetched at 0x200, high byte first (R241, R242). -/
theorem test_boot : (State.boot defaultConfig [0xA0, 0x00, 0xD0, 0x15]).map
    (fun s => (s.fetchWord, s.readWord 0x202)) = some (0xA000, 0xD015) := by decide

/-- From reset with nothing placed the first step is HALT (R79, R242). -/
theorem test_empty_image_halts : view (step State.reset) (fun t => (t.mode, t.pc)) =
    some (.halted .haltWord, 0x202) := by decide

/-- An instruction placed by the host's helper is the one the next step runs. -/
theorem test_withFetchWord : view (step (State.reset.withFetchWord 16 0x600A)) (fun _ => ()) = some () ∧
    (State.reset.withFetchWord 16 0x600A).fetchWord = 0x600A := by decide

/-! ### Witnesses: for each statement with hypotheses, states and operands that meet them all -/

/-- A state within the invariant, away from zero: pc in a program, full stack, a sound timer at 5, I above
0xFFF, LD V0,0x0A stored at pc, half a tick carried. -/
def sample : State :=
  { (((State.reset.setV 0 0xF3).setV 1 0x17).setI 0x1300).setPc 0x300 with
    sp := 16, stack := Vector.replicate 16 0xFFF, st := 5, dt := 2, tone := true, acc := 1 / 120,
    mem := [(0x300, 0x60), (0x301, 0x0A)] }

/-- The sample with another SP. -/
def sampleSp (sp : Byte) : State := { sample with sp := sp }

/-- The sample with another configuration. -/
def sampleCfg (cfg : Config) : State := { sample with cfg := cfg }

theorem witness_EncodeThenDecode :
    (Instr.drw 15 15 0xF).wellFormed = true ∧ (Instr.call 0xFFF).wellFormed = true := by decide
theorem witness_DecodeThenEncode : decode 0xDFFF = .ok (.drw 15 15 0xF) := by decide
theorem witness_DecodeSelectsTheMatchingRow : decode 0x00EE = .ok .ret ∧ Instr.ret.row ∈ opcodeRows ∧
    Instr.ret.row.selects 0x00EE = true := by decide
theorem witness_StepRunsTheDecodedInstruction :
    sample.mode = .running ∧ (Instr.ldImm 0 0x0A).wellFormed = true ∧
    decodeBytes [sample.readByte sample.pc.toNat, sample.readByte (sample.pc.toNat + 1)] =
      .ok (.ldImm 0 0x0A, []) := by decide
theorem witness_UnrecognisedWordIsANoOp :
    decode (sample.placeInstr 16 0x5011).fetchWord = .error .group5 ∧ sample.cfg.decode = .strict ∧
    decode ((sampleCfg { defaultConfig with decode := .refuse }).placeInstr 16 0xF0FF).fetchWord =
      .error .groupF := by decide
theorem witness_TerminalStatesStay :
    (sample.haltWith .quit).mode.isTerminal = true ∧
    (sample.raiseFatal .stackOverflow 0x2300).mode.isTerminal = true := by decide
theorem witness_KeyWaitRunsNoInstruction : (sample.suspend 15).mode = .suspended 15 := by decide
theorem witness_EventsAndTicksNeverDivertControl :
    sample.mode ≠ .suspended 0 ∧ (sample.suspend 1).mode ≠ .suspended 0 := by decide
theorem witness_StepStopsOnly_keyFault :
    step ((sampleCfg { defaultConfig with keyIndex := .fault }).placeInstr 16 0xE19E) =
      .fault (.keyIndexOutOfRange 0x17) := rfl
theorem witness_StepStopsOnly_illegalSp :
    step ((sampleSp 17).placeInstr 16 0x00EE) = .fault (.stackPointerIllegal 17) := rfl
theorem witness_StepStopsOnly_refusal :
    step ((sampleCfg { defaultConfig with decode := .refuse }).placeInstr 16 0x5011) =
      .refused (.unrecognisedWord 0x5011 0x300) := rfl
theorem witness_ToneFollowsTheSoundTimer :
    sample.mode.isTerminal = false ∧ (∃ t, step sample = .next t) ∧
    ∃ t, step (sample.placeInstr 16 0x0000) = .next t := ⟨rfl, ⟨_, rfl⟩, _, rfl⟩
theorem witness_BootMeetsTheInvariant :
    ∃ s, State.boot { defaultConfig with decode := .refuse } [0xA0, 0x00] = some s := ⟨_, rfl⟩

theorem sample_inv : sample.Inv where
  pcInRange := by decide
  spLegal := by decide
  stackInRange := by decide
  accNonneg := by decide +kernel
  accBelowTick := by decide +kernel
  memCanonical := by decide
  tone := by unfold State.toneAgrees; decide

theorem witness_StepKeepsTheInvariant : sample.Inv ∧ ∃ t, step sample = .next t :=
  ⟨sample_inv, _, rfl⟩
theorem witness_StepAlwaysCompletes : sample.Inv ∧ sample.noModelStops := ⟨sample_inv, rfl, rfl⟩

theorem witness_OnlyCallAndRetTouchTheStack : ∃ t, exec (.storeRegs 3) sample = .next t ∧
    (∀ nnn, Instr.storeRegs 3 ≠ .call nnn) ∧ Instr.storeRegs 3 ≠ .ret :=
  ⟨_, rfl, by simp, by simp⟩
theorem witness_OnlyStoresTouchMemory : ∃ t, exec (.loadRegs 3) sample = .next t ∧
    (∀ x, Instr.loadRegs 3 ≠ .ldB x) ∧ ∀ x, Instr.loadRegs 3 ≠ .storeRegs x :=
  ⟨_, rfl, by simp, by simp⟩
theorem witness_OnlyClsAndDrwTouchTheScreen :
    (∃ t, exec .cls sample = .next t) ∧ (∃ t, exec (.drw 0 1 5) sample = .next t) ∧
    ∃ t, exec (.ldB 1) sample = .next t ∧ Instr.ldB 1 ≠ .cls ∧ ∀ x y n, Instr.ldB 1 ≠ .drw x y n :=
  ⟨⟨_, rfl⟩, ⟨_, rfl⟩, _, rfl, by simp, by simp⟩
theorem witness_InstructionsLeaveKeysAndPacing : ∃ t, exec (.ldVxDT 4) sample = .next t ∧
    (∀ x, Instr.ldVxDT 4 ≠ .ldDTVx x) ∧ ∀ x, Instr.ldVxDT 4 ≠ .ldSTVx x :=
  ⟨_, rfl, by simp, by simp⟩
theorem witness_OnlyFourEventsChangeTheMode :
    (∃ t, exec .halt sample = .next t ∧ ¬ SameMode sample t) ∧
    (∃ t, exec (.ldVxK 2) sample = .next t ∧ ¬ SameMode sample t) ∧
    (∃ t, exec (.call 0x400) sample = .next t ∧ ¬ SameMode sample t) ∧
    ∃ t, exec .ret (sampleSp 0) = .next t ∧ ¬ SameMode (sampleSp 0) t := by
  refine ⟨⟨_, rfl, ?_⟩, ⟨_, rfl, ?_⟩, ⟨_, rfl, ?_⟩, _, rfl, ?_⟩ <;> exact fun h => absurd h.1 (by decide)
theorem witness_FlagsGoOnlyToVF :
    ((∃ t, exec (.addReg 15 1) sample = .next t) ∧ WritesFlag (.addReg 15 1)) ∧
    ((∃ t, exec (.ldImm 14 9) sample = .next t) ∧ ¬ WritesFlag (.ldImm 14 9) ∧
      ¬ NamesVFAsDestination (.ldImm 14 9)) ∧
    ((14 : Reg) ≠ VF ∧ (∃ t, exec (.addReg 14 1) sample = .next t) ∧ (∃ t, exec (.sub 14 1) sample = .next t) ∧
      (∃ t, exec (.subn 14 1) sample = .next t) ∧ (∃ t, exec (.shr 14 1) sample = .next t) ∧
      ∃ t, exec (.shl 14 1) sample = .next t) ∧
    ∃ t, exec (.drw 15 1 15) sample = .next t := by
  refine ⟨⟨⟨_, rfl⟩, by simp [WritesFlag]⟩, ⟨⟨_, rfl⟩, by simp [WritesFlag], ?_⟩,
    ⟨by decide, ⟨_, rfl⟩, ⟨_, rfl⟩, ⟨_, rfl⟩, ⟨_, rfl⟩, _, rfl⟩, _, rfl⟩
  simp [NamesVFAsDestination, VF]

theorem witness_HaltHalts_terminal : (sample.haltWith .quit).mode.isTerminal = true := by decide
theorem witness_HaltHalts : (0x0123 : Word).toNat < 0x1000 ∧
    (0x0123 : Word).toNat ∉ [0x000, 0x0E0, 0x0EE] ∧ State.reset.mode = .running ∧
    State.reset.readByte State.reset.pc.toNat = 0 ∧ State.reset.readByte (State.reset.pc.toNat + 1) = 0 := by
  decide
theorem witness_CallPushesAndJumps : (sampleSp 0).sp.toNat < 16 ∧ (sampleSp 15).sp.toNat < 16 := by decide
theorem witness_RetPopsAndReturns : (sampleSp 1).sp.toNat = (0 : Fin 16).val + 1 ∧
    sample.sp.toNat = (15 : Fin 16).val + 1 := by decide
theorem witness_StackViolationsAreFatal : sample.sp = 16 ∧ (sampleSp 0).sp = 0 := by decide
theorem witness_StackViolationsAreFatal_steps :
    ((sample.placeInstr 16 0x2FFE).mode = .running ∧ (sample.placeInstr 16 0x2FFE).sp = 16 ∧
      decode (sample.placeInstr 16 0x2FFE).fetchWord = .ok (.call 0xFFE)) ∧
    (((sampleSp 0).placeInstr 16 0x00EE).mode = .running ∧ ((sampleSp 0).placeInstr 16 0x00EE).sp = 0 ∧
      decode ((sampleSp 0).placeInstr 16 0x00EE).fetchWord = .ok .ret) := by decide
theorem witness_IllegalStackPointerFaults : 16 < (sampleSp 17).sp.toNat ∧ 16 < (sampleSp 255).sp.toNat := by
  decide

theorem witness_ImmediateSkips : sample.getV 0 = 0xF3 ∧ sample.getV 0 ≠ 0xF2 := by decide
theorem witness_RegisterSkips : (15 : Fin 16) ≠ 0 ∧ sample.getV 2 = sample.getV 3 ∧
    sample.getV 0 ≠ sample.getV 1 := by decide
theorem witness_AddWithCarry :
    ((regs 0xFE 1).getV 0).toNat + ((regs 0xFE 1).getV 1).toNat = 255 ∧
    ((regs 0xFF 1).getV 0).toNat + ((regs 0xFF 1).getV 1).toNat > 255 ∧ (0 : Reg) ≠ VF := by decide
theorem witness_SubtractBothWays :
    ((regs 5 5).getV 1).toNat ≤ ((regs 5 5).getV 0).toNat ∧
    ¬ ((regs 4 5).getV 1).toNat ≤ ((regs 4 5).getV 0).toNat ∧
    ¬ ((regs 5 4).getV 0).toNat ≤ ((regs 5 4).getV 1).toNat := by decide
theorem witness_ShiftsTakeVy : (sample.getV 1).getLsbD 0 = true ∧ (sample.getV 1).getLsbD 7 = false ∧
    (sample.getV 0).getLsbD 7 = true ∧ (sample.getV 2).getLsbD 0 = false := by decide
theorem witness_RndMasksTheDraw : (sample.placeInstr 16 0xC30F).mode = .running ∧
    decode (sample.placeInstr 16 0xC30F).fetchWord = .ok (.rnd 3 0x0F) := by decide

theorem witness_StoreDecimalDigits : (∀ j < 3, maskAddr 0x303 ≠ maskAddr (sample.i.toNat + j)) ∧
    ∀ j < 3, maskAddr 0x12FF ≠ maskAddr (sample.i.toNat + j) := by decide
theorem witness_StoreRegisterBlock : (15 : Reg).val ≤ (15 : Reg).val ∧
    (∀ j ≤ (15 : Reg).val, maskAddr 0x310 ≠ maskAddr (sample.i.toNat + j)) ∧
    (∀ j ≤ (0 : Reg).val, maskAddr 0x301 ≠ maskAddr (sample.i.toNat + j)) := by decide
theorem witness_LoadRegisterBlock : sample.cfg.blockI = .unchanged ∧
    (sampleCfg { defaultConfig with blockI := .increment }).cfg.blockI = .increment ∧
    (0 : Reg).val ≤ (0 : Reg).val ∧ ¬ (1 : Reg).val ≤ (0 : Reg).val := by decide
theorem witness_BlockRoundTrip : ∃ t, exec (.storeRegs 15) sample = .next t ∧
    SameMemory t (t.setV 0 0) ∧ (t.setV 0 0).i = sample.i := ⟨_, rfl, fun _ => rfl, rfl⟩
theorem witness_StoreIsSeenByTheNextFetch : 1 ≤ (1 : Reg).val ∧
    maskAddr sample.i.toNat = maskAddr sample.pc.toNat ∧ ∃ t, exec (.storeRegs 1) sample = .next t :=
  ⟨by decide, by decide, _, rfl⟩
theorem witness_WordWriteThenRead : maskAddr 0x001 ≠ maskAddr 0xFFF ∧
    maskAddr 0x001 ≠ maskAddr (0xFFF + 1) := by decide

theorem witness_DrwXorsTheSprite :
    (FrameBuffer.pixel (canvas 0 0 [0x80]).fb 0 0 = true ∧ SpriteHits (canvas 0 0 [0x80]) 0 1 1 0 0 = true) ∧
    ((canvas 31 63 [0x80]).getV 0 = 0 ∧
      ∀ c < 64, FrameBuffer.pixel (canvas 0 8 [0xFF]).fb 0 c = true →
        SpriteHits (canvas 0 8 [0xFF]) 0 1 1 0 c = false) := by decide
theorem witness_DrawTwiceRestores : ∃ t, exec (.drw 0 1 1) (canvas 0 0 [0xC0]) = .next t ∧
    t.getV 0 = (canvas 0 0 [0xC0]).getV 0 ∧ t.getV 1 = (canvas 0 0 [0xC0]).getV 1 :=
  ⟨_, rfl, by decide, by decide⟩
theorem witness_SecondDrawCollidesIffSpriteNotBlank :
    ∃ t u, exec (.drw 0 1 1) (canvas 0 0 [0x80]) = .next t ∧ t.getV 0 = 0 ∧ t.getV 1 = 0 ∧
      exec (.drw 0 1 1) t = .next u := ⟨_, _, rfl, by decide, by decide, rfl⟩

theorem witness_KeySkipsUnderMask : sample.cfg.keyIndex = .mask ∧
    (7 : Key).val = (sample.getV 1).toNat % 16 := by decide
theorem witness_KeySkipsUnderFaultPolicy :
    (sampleCfg { defaultConfig with keyIndex := .fault }).cfg.keyIndex = .fault ∧
    (15 : Key).val = (((sampleCfg { defaultConfig with keyIndex := .fault }).setV 1 15).getV 1).toNat ∧
    16 ≤ (((sampleCfg { defaultConfig with keyIndex := .fault }).setV 1 16).getV 1).toNat := by decide
theorem witness_TimerTransfersAndDecay :
    ((1 : Nat) : Rat) / 60 ≤ sample.acc + (sec60 : Rat) ∧
    sample.acc + (sec60 : Rat) < (((1 : Nat) : Rat) + 1) / 60 := by decide +kernel
theorem witness_KeyWaitEndsAtTheFirstKeyDown : (sample.suspend 1).mode = .suspended 1 ∧
    (∀ e ∈ [InputEvent.keyUp 3], ∃ k, e = .keyUp k) ∧ InputEvent.quit ∉ [InputEvent.keyDown 5] := by
  simp [State.suspend]
theorem witness_KeyTableFollowsTheEvents :
    InputEvent.quit ∉ [InputEvent.keyDown 5, .keyUp 5, .keyDown 5] := by decide
theorem witness_QuitEndsTheIteration : (sample.suspend 1).mode.isTerminal = false ∧
    sample.mode.isTerminal = false ∧ InputEvent.quit ∉ [InputEvent.keyDown 3] ∧
    (⟨1, [.keyDown 3, .quit, .keyDown 4], 0⟩ : Inputs).events =
      [.keyDown 3] ++ .quit :: [.keyDown 4] := by decide
theorem witness_TicksDoNotDrift : 0 ≤ sample.acc ∧ sample.acc < 1 / 60 := by decide +kernel
theorem witness_TimersDuringTheKeyWait :
    WaitsForKey (sample.suspend 1) 1 ∧ WaitsForKey (sample.placeInstr 16 0xFF0A) 15 ∧
    (∀ e ∈ (⟨1, [.keyUp 3], 0⟩ : Inputs).events, ∃ k, e = .keyUp k) ∧
    (sample.suspend 1).cfg.timersDuringWait = .keepRunning ∧
    ((sampleCfg { defaultConfig with timersDuringWait := .freeze }).suspend 1).cfg.timersDuringWait =
      .freeze := ⟨.inl rfl, .inr ⟨rfl, by decide⟩, by simp, rfl, rfl⟩
theorem witness_TimersDuringTheKeyWait_completes :
    WaitsForKey (sample.placeInstr 16 0xFF0A) 15 ∧
    (∀ e ∈ [InputEvent.keyUp 3], ∃ j, e = .keyUp j) ∧ InputEvent.quit ∉ [InputEvent.keyDown 5] ∧
    (⟨1, [.keyUp 3, .keyDown 15, .keyDown 5], 0⟩ : Inputs).events =
      [.keyUp 3] ++ .keyDown 15 :: [.keyDown 5] :=
  ⟨.inr ⟨rfl, by decide⟩, by simp, by decide, rfl⟩
theorem witness_LoadedTimerTicksInTheSameIteration :
    let s := sample.placeInstr 16 0xF015
    s.mode = .running ∧ decode s.fetchWord = .ok (.ldDTVx 0) ∧ 0 ≤ s.acc ∧
    ((1 : Nat) : Rat) / 60 ≤ s.acc + (sec60 : Rat) ∧ s.acc + (sec60 : Rat) < ((1 : Nat) + 1 : Rat) / 60 := by
  refine ⟨rfl, by decide, by decide +kernel, by decide +kernel, by decide +kernel⟩
theorem witness_BootLeavesTheResetValues :
    (∃ s, State.boot defaultConfig [0xA0, 0x01] = some s) ∧
    (3584 < (List.replicate 3585 (0 : Byte)).length ∧ ¬ 3584 < (List.replicate 3584 (0 : Byte)).length) ∧
    (80 ≤ 80 ∧ 80 < 512) ∧ (512 + [0xA0, 0x01].length ≤ 4095 ∧ 4095 < 4096) :=
  ⟨⟨_, rfl⟩, by rw [List.length_replicate, List.length_replicate]; decide, by decide, by decide⟩

end Sys2Proof.Tests
end

section
/-! The fields of the encoder's words (30_encoding.md rules R71, R72) and the decoding of the encodings the
source confirms by example (R74). -/

namespace Sys2Proof

/-! ### The number an encoded word holds (R72) -/

theorem toNat_encodeA {op : Nat} (nnn : Addr) (hop : op < 16) :
    (encodeA op nnn).toNat = op * 4096 + nnn.toNat := by
  have hn := nnn.isLt
  rw [encodeA, BitVec.toNat_ofNat, Nat.mod_eq_of_lt (by omega)]

theorem toNat_encodeXK {op : Nat} (x : Reg) (kk : Byte) (hop : op < 16) :
    (encodeXK op x kk).toNat = op * 4096 + x.val * 256 + kk.toNat := by
  have hk := kk.isLt
  rw [encodeXK, BitVec.toNat_ofNat, Nat.mod_eq_of_lt (by omega)]

theorem toNat_encodeXY {op f : Nat} (x y : Reg) (hop : op < 16) (hf : f < 16) :
    (encodeXY op x y f).toNat = op * 4096 + x.val * 256 + y.val * 16 + f := by
  rw [encodeXY, BitVec.toNat_ofNat, Nat.mod_eq_of_lt (by omega)]

/-! ### A field is determined by the digits of its word (R71) -/

theorem fieldOp_eq {w : Word} {op r : Nat} (hw : w.toNat = op * 4096 + r) (hr : r < 4096) :
    fieldOp w = op := by
  simp only [fieldOp, bits, hw]
  omega

theorem fieldX_eq {w : Word} {a r : Nat} {x : Reg} (hw : w.toNat = a * 4096 + x.val * 256 + r)
    (hr : r < 256) : fieldX w = x := by
  apply Fin.ext
  simp only [fieldX, bits, hw, Fin.val_ofNat]
  omega

theorem fieldY_eq {w : Word} {a r : Nat} {y : Reg} (hw : w.toNat = a * 256 + y.val * 16 + r)
    (hr : r < 16) : fieldY w = y := by
  apply Fin.ext
  simp only [fieldY, bits, hw, Fin.val_ofNat]
  omega

theorem fieldNNN_eq {w : Word} {a : Nat} {nnn : Addr} (hw : w.toNat = a * 4096 + nnn.toNat) :
    fieldNNN w = nnn := by
  apply BitVec.eq_of_toNat_eq
  simp only [fieldNNN, bits, hw, BitVec.toNat_ofNat]
  omega

theorem fieldKK_eq {w : Word} {a : Nat} {kk : Byte} (hw : w.toNat = a * 256 + kk.toNat) :
    fieldKK w = kk := by
  apply BitVec.eq_of_toNat_eq
  simp only [fieldKK, bits, hw, BitVec.toNat_ofNat]
  omega

theorem bits_low_nibble_eq {w : Word} {a f : Nat} (hw : w.toNat = a * 16 + f) (hf : f < 16) :
    bits w 0 4 = f := by
  simp only [bits, hw]
  omega

theorem fieldN_eq {w : Word} {a : Nat} {n : Nibble} (hw : w.toNat = a * 16 + n.toNat) : fieldN w = n := by
  rw [fieldN, bits_low_nibble_eq hw n.isLt, BitVec.ofNat_toNat, BitVec.setWidth_eq]

/-! ### The fields of each format's words -/

section
variable {op : Nat} (hop : op < 16)
include hop

@[simp] theorem fieldOp_encodeA (nnn : Addr) : fieldOp (encodeA op nnn) = op :=
  fieldOp_eq (toNat_encodeA nnn hop) nnn.isLt

@[simp] theorem fieldNNN_encodeA (nnn : Addr) : fieldNNN (encodeA op nnn) = nnn :=
  fieldNNN_eq (toNat_encodeA nnn hop)

@[simp] theorem fieldOp_encodeXK (x : Reg) (kk : Byte) : fieldOp (encodeXK op x kk) = op :=
  fieldOp_eq (r := x.val * 256 + kk.toNat) (by rw [toNat_encodeXK x kk hop]; omega)
    (by have := kk.isLt; omega)

@[simp] theorem fieldX_encodeXK (x : Reg) (kk : Byte) : fieldX (encodeXK op x kk) = x :=
  fieldX_eq (toNat_encodeXK x kk hop) kk.isLt

@[simp] theorem fieldKK_encodeXK (x : Reg) (kk : Byte) : fieldKK (encodeXK op x kk) = kk :=
  fieldKK_eq (a := op * 16 + x.val) (by rw [toNat_encodeXK x kk hop]; omega)

variable {f : Nat} (hf : f < 16)

@[simp] theorem fieldN_encodeXY (x y : Reg) (n : Nibble) : fieldN (encodeXY op x y n.toNat) = n :=
  fieldN_eq (a := op * 256 + x.val * 16 + y.val) (by rw [toNat_encodeXY x y hop n.isLt]; omega)

include hf

@[simp] theorem fieldOp_encodeXY (x y : Reg) : fieldOp (encodeXY op x y f) = op :=
  fieldOp_eq (r := x.val * 256 + y.val * 16 + f) (by rw [toNat_encodeXY x y hop hf]; omega) (by omega)

@[simp] theorem fieldX_encodeXY (x y : Reg) : fieldX (encodeXY op x y f) = x :=
  fieldX_eq (a := op) (r := y.val * 16 + f) (by rw [toNat_encodeXY x y hop hf]; omega) (by omega)

@[simp] theorem fieldY_encodeXY (x y : Reg) : fieldY (encodeXY op x y f) = y :=
  fieldY_eq (a := op * 16 + x.val) (by rw [toNat_encodeXY x y hop hf]; omega) hf

@[simp] theorem bits_low_nibble_encodeXY (x y : Reg) : bits (encodeXY op x y f) 0 4 = f :=
  bits_low_nibble_eq (a := op * 256 + x.val * 16 + y.val) (by rw [toNat_encodeXY x y hop hf]; omega) hf

end

/-! ### The confirmed patterns decode (R74) -/

theorem decode_encode_ldImm (x : Reg) (kk : Byte) : decode (encode (.ldImm x kk)) = .ok (.ldImm x kk) := by
  simp [encode, decode]

theorem decode_encode_addReg (x y : Reg) : decode (encode (.addReg x y)) = .ok (.addReg x y) := by
  simp [encode, decode, decodeGroup8]

theorem decode_encode_ldI (nnn : Addr) : decode (encode (.ldI nnn)) = .ok (.ldI nnn) := by
  simp [encode, decode]

theorem decode_encode_drw (x y : Reg) (n : Nibble) : decode (encode (.drw x y n)) = .ok (.drw x y n) := by
  simp [encode, decode, n.isLt]

/-- Settles O2: each pattern, for all operands, is the encoder's word of its instruction; the example words
are evaluated. -/
theorem confirmedPatternsDecode : Obligations.ConfirmedPatternsDecode := by
  unfold Obligations.ConfirmedPatternsDecode
  refine ⟨by decide, fun x kk => ?ld, by decide, by decide, fun x y => ?add, by decide, fun nnn => ?index,
    by decide, fun x y n => ?draw, by decide⟩
  case ld => exact decode_encode_ldImm x kk
  case add =>
    have hword : 0x8004 + x.val * 0x100 + y.val * 0x10 =
        0x8 * 4096 + x.val * 256 + y.val * 16 + 0x4 := by omega
    rw [hword]
    exact decode_encode_addReg x y
  case index => exact decode_encode_ldI nnn
  case draw => exact decode_encode_drw x y n

end Sys2Proof
end

section
/-! Register loads, arithmetic and logic (42_alu.md): the frame of a register write, and LD Vx,kk. -/

namespace Sys2Proof.Machine

theorem exec_ldImm (x : Reg) (kk : Byte) (s : State) : exec (.ldImm x kk) s = .next (s.setV x kk) := rfl

theorem State.getV_setV_self (s : State) (x : Reg) (b : Byte) : (s.setV x b).getV x = b := by
  rw [State.getV_setV, if_pos rfl]

theorem State.sameRegsBut_setV (s : State) (x : Reg) (b : Byte) : SameRegsBut (· = x) s (s.setV x b) := by
  intro r hr
  rw [State.getV_setV, if_neg (Ne.symm hr)]

theorem State.sameRest_setV (s : State) (x : Reg) (b : Byte) : SameRest s (s.setV x b) := by
  simp [SameRest, SameStack, SameTimers, SameScreen, SameMode, SameOutside]

/-- A register write changes that register and nothing else: no flag is set on the side (R21). -/
theorem State.onlyRegs_setV (s : State) (x : Reg) (b : Byte) : OnlyRegs (· = x) s (s.setV x b) :=
  ⟨s.sameRegsBut_setV x b, s.setV_i x b, s.setV_pc x b, s.setV_readByte x b, s.sameRest_setV x b⟩

/-- Settles O32: the pattern is the encoder's word of LD Vx,kk, and its meaning is one register write. -/
theorem loadImmediate : Obligations.LoadImmediate := by
  unfold Obligations.LoadImmediate
  refine ⟨fun x kk => ?pattern, by decide, by decide, fun x kk s => ?effect⟩
  case pattern => exact decode_encode_ldImm x kk
  case effect => exact ⟨s.setV x kk, exec_ldImm x kk s, s.getV_setV_self x kk, s.onlyRegs_setV x kk⟩

end Sys2Proof.Machine
end

section
/-! The index register (43_index_memory.md): the frame of a write to I, and LD I,nnn. -/

namespace Sys2Proof.Machine

theorem exec_ldI (nnn : Addr) (s : State) : exec (.ldI nnn) s = .next (s.setI nnn.toNat) := rfl

/-- A 12-bit address fits I, so the write zero-extends it (R140). -/
theorem State.setI_addr_toNat (s : State) (nnn : Addr) : (s.setI nnn.toNat).i.toNat = nnn.toNat := by
  have hn := nnn.isLt
  rw [State.setI_i, BitVec.toNat_ofNat, Nat.mod_eq_of_lt (by omega)]

theorem State.sameRest_setI (s : State) (a : Nat) : SameRest s (s.setI a) := by
  simp [SameRest, SameStack, SameTimers, SameScreen, SameMode, SameOutside]

theorem State.onlyI_setI (s : State) (a : Nat) : OnlyI s (s.setI a) :=
  ⟨s.setI_getV a, s.setI_pc a, s.setI_readByte a, s.sameRest_setI a⟩

/-- Settles O38: the pattern is the encoder's word of LD I,nnn, and its meaning is one write to I. -/
theorem loadIndex : Obligations.LoadIndex := by
  unfold Obligations.LoadIndex
  refine ⟨fun nnn => ?pattern, fun nnn s => ?effect⟩
  case pattern => exact decode_encode_ldI nnn
  case effect => exact ⟨s.setI nnn.toNat, exec_ldI nnn s, s.setI_addr_toNat nnn, s.onlyI_setI nnn.toNat⟩

end Sys2Proof.Machine
end

section
/-! The encoder and the decoder are inverse to each other (30_encoding.md rules R70 to R75): the format X, the
decoding of every encoded word, and the word written back from its own fields. -/

namespace Sys2Proof

/-! ### Format X (R72) -/

theorem toNat_encodeX {op ff : Nat} (x : Reg) (hop : op < 16) (hff : ff < 256) :
    (encodeX op x ff).toNat = op * 4096 + x.val * 256 + ff := by
  rw [encodeX, BitVec.toNat_ofNat, Nat.mod_eq_of_lt (by omega)]

section
variable {op ff : Nat} (hop : op < 16) (hff : ff < 256)
include hop hff

@[simp] theorem fieldOp_encodeX (x : Reg) : fieldOp (encodeX op x ff) = op :=
  fieldOp_eq (r := x.val * 256 + ff) (by rw [toNat_encodeX x hop hff]; omega) (by omega)

@[simp] theorem fieldX_encodeX (x : Reg) : fieldX (encodeX op x ff) = x :=
  fieldX_eq (toNat_encodeX x hop hff) hff

@[simp] theorem bits_low_byte_encodeX (x : Reg) : bits (encodeX op x ff) 0 8 = ff := by
  simp only [bits, toNat_encodeX x hop hff]
  omega

end

/-! ### The encoder's word decodes -/

/-- Encoding loses nothing: the word of each format shows the decoder the fields it was built from. -/
theorem decode_encode (i : Instr) : decode (encode i) = .ok i := by
  cases i with
  | halt | cls | ret => decide
  | drw x y n => exact decode_encode_drw x y n
  | jp | call | ldI | jpV0 => simp [encode, decode]
  | seImm | sneImm | ldImm | addImm | rnd => simp [encode, decode]
  | seReg | sneReg => simp [encode, decode, decodeNibble0]
  | ldReg | orReg | andReg | xorReg | addReg | sub | shr | subn | shl =>
    simp [encode, decode, decodeGroup8]
  | skp | sknp => simp [encode, decode, decodeGroupE]
  | ldVxDT | ldVxK | ldDTVx | ldSTVx | addI | ldF | ldB | storeRegs | loadRegs =>
    simp [encode, decode, decodeGroupF]

/-- A word is its two bytes, the high one first (R53). -/
theorem wordOfBytes_high_low (w : Word) : wordOfBytes (highByte w) (lowByte w) = w := by
  apply BitVec.eq_of_toNat_eq
  have hw := w.isLt
  simp only [wordOfBytes, highByte, lowByte, bits, BitVec.toNat_ofNat]
  omega

/-- Settles O3: the decoder puts the two bytes together to the encoder's word, and that word decodes. -/
theorem encodeThenDecode : Obligations.EncodeThenDecode := by
  unfold Obligations.EncodeThenDecode
  intro i rest _
  simp only [encodeBytes, List.cons_append, List.nil_append, decodeBytes, wordOfBytes_high_low, decode_encode]

/-! ### A word is written back from its fields -/

theorem encodeA_fields {w : Word} {op : Nat} (hop : fieldOp w = op) : encodeA op (fieldNNN w) = w := by
  apply BitVec.eq_of_toNat_eq
  have hw := w.isLt
  subst hop
  simp only [encodeA, fieldNNN, fieldOp, bits, BitVec.toNat_ofNat]
  omega

theorem encodeXK_fields {w : Word} {op : Nat} (hop : fieldOp w = op) :
    encodeXK op (fieldX w) (fieldKK w) = w := by
  apply BitVec.eq_of_toNat_eq
  have hw := w.isLt
  subst hop
  simp only [encodeXK, fieldX, fieldKK, fieldOp, bits, BitVec.toNat_ofNat, Fin.val_ofNat]
  omega

theorem encodeXY_fields {w : Word} {op f : Nat} (hop : fieldOp w = op) (hf : bits w 0 4 = f) :
    encodeXY op (fieldX w) (fieldY w) f = w := by
  apply BitVec.eq_of_toNat_eq
  have hw := w.isLt
  subst hop hf
  simp only [encodeXY, fieldX, fieldY, fieldOp, bits, BitVec.toNat_ofNat, Fin.val_ofNat]
  omega

theorem encodeX_fields {w : Word} {op ff : Nat} (hop : fieldOp w = op) (hff : bits w 0 8 = ff) :
    encodeX op (fieldX w) ff = w := by
  apply BitVec.eq_of_toNat_eq
  have hw := w.isLt
  subst hop hff
  simp only [encodeX, fieldX, fieldOp, bits, BitVec.toNat_ofNat, Fin.val_ofNat]
  omega

theorem ofNat_fields {w : Word} {nnn : Nat} (hop : fieldOp w = 0) (h : bits w 0 12 = nnn) :
    BitVec.ofNat 16 nnn = w := by
  apply BitVec.eq_of_toNat_eq
  have hw := w.isLt
  simp only [fieldOp, bits] at hop h
  rw [BitVec.toNat_ofNat]
  omega

theorem encode_decodeGroup0 {w : Word} {i : Instr} (hop : fieldOp w = 0) (h : decodeGroup0 w = .ok i) :
    encode i = w := by
  unfold decodeGroup0 at h
  split at h <;> cases h <;> exact ofNat_fields hop ‹_›

theorem encode_decodeGroup8 {w : Word} {i : Instr} (hop : fieldOp w = 8) (h : decodeGroup8 w = .ok i) :
    encode i = w := by
  unfold decodeGroup8 at h
  split at h <;> cases h <;> exact encodeXY_fields hop ‹_›

theorem encode_decodeGroupE {w : Word} {i : Instr} (hop : fieldOp w = 0xE) (h : decodeGroupE w = .ok i) :
    encode i = w := by
  unfold decodeGroupE at h
  split at h <;> cases h <;> exact encodeX_fields hop ‹_›

theorem encode_decodeGroupF {w : Word} {i : Instr} (hop : fieldOp w = 0xF) (h : decodeGroupF w = .ok i) :
    encode i = w := by
  unfold decodeGroupF at h
  split at h <;> cases h <;> exact encodeX_fields hop ‹_›

theorem decodeNibble0_eq_ok {w : Word} {i j : Instr} {r : DecodeReject} (h : decodeNibble0 w j r = .ok i) :
    bits w 0 4 = 0 ∧ i = j := by
  unfold decodeNibble0 at h
  split at h <;> cases h
  exact ⟨‹_›, rfl⟩

theorem fieldOp_lt (w : Word) : fieldOp w < 16 := Nat.mod_lt _ (by decide)

/-- Decoding loses nothing: the instruction read from a word is written back as that word. -/
theorem encode_decode {w : Word} {i : Instr} (h : decode w = .ok i) : encode i = w := by
  have hlt := fieldOp_lt w
  unfold decode at h
  split at h
  case h_1 hop => exact encode_decodeGroup0 hop h
  case h_6 hop | h_10 hop =>
    obtain ⟨hn, rfl⟩ := decodeNibble0_eq_ok h
    exact encodeXY_fields hop hn
  case h_9 hop => exact encode_decodeGroup8 hop h
  case h_14 hop => cases h; exact encodeXY_fields hop (by simp [fieldN, bits])
  case h_15 hop => exact encode_decodeGroupE hop h
  case h_16 => exact encode_decodeGroupF (by simp only [imp_false] at *; omega) h
  case h_2 hop | h_3 hop | h_11 hop | h_12 hop => cases h; exact encodeA_fields hop
  case h_4 hop | h_5 hop | h_7 hop | h_8 hop | h_13 hop => cases h; exact encodeXK_fields hop

/-- The checks of `Laws.EncodesIntoRow` over the whole instruction set: every instruction fits its format,
and its word lies in its own row. -/
theorem encodesIntoRow (i : Instr) : i.wellFormed = true ∧ i.row.selects (encode i) = true :=
  match i with
  | .halt => Laws.EncodesIntoRow.halt
  | .cls => Laws.EncodesIntoRow.cls
  | .ret => Laws.EncodesIntoRow.ret
  | .jp nnn => Laws.EncodesIntoRow.jp nnn
  | .call nnn => Laws.EncodesIntoRow.call nnn
  | .seImm x kk => Laws.EncodesIntoRow.seImm x kk
  | .sneImm x kk => Laws.EncodesIntoRow.sneImm x kk
  | .seReg x y => Laws.EncodesIntoRow.seReg x y
  | .sneReg x y => Laws.EncodesIntoRow.sneReg x y
  | .ldImm x kk => Laws.EncodesIntoRow.ldImm x kk
  | .addImm x kk => Laws.EncodesIntoRow.addImm x kk
  | .ldReg x y => Laws.EncodesIntoRow.ldReg x y
  | .orReg x y => Laws.EncodesIntoRow.orReg x y
  | .andReg x y => Laws.EncodesIntoRow.andReg x y
  | .xorReg x y => Laws.EncodesIntoRow.xorReg x y
  | .addReg x y => Laws.EncodesIntoRow.addReg x y
  | .sub x y => Laws.EncodesIntoRow.sub x y
  | .shr x y => Laws.EncodesIntoRow.shr x y
  | .subn x y => Laws.EncodesIntoRow.subn x y
  | .shl x y => Laws.EncodesIntoRow.shl x y
  | .ldI nnn => Laws.EncodesIntoRow.ldI nnn
  | .jpV0 nnn => Laws.EncodesIntoRow.jpV0 nnn
  | .rnd x kk => Laws.EncodesIntoRow.rnd x kk
  | .drw x y n => Laws.EncodesIntoRow.drw x y n
  | .skp x => Laws.EncodesIntoRow.skp x
  | .sknp x => Laws.EncodesIntoRow.sknp x
  | .ldVxDT x => Laws.EncodesIntoRow.ldVxDT x
  | .ldVxK x => Laws.EncodesIntoRow.ldVxK x
  | .ldDTVx x => Laws.EncodesIntoRow.ldDTVx x
  | .ldSTVx x => Laws.EncodesIntoRow.ldSTVx x
  | .addI x => Laws.EncodesIntoRow.addI x
  | .ldF x => Laws.EncodesIntoRow.ldF x
  | .ldB x => Laws.EncodesIntoRow.ldB x
  | .storeRegs x => Laws.EncodesIntoRow.storeRegs x
  | .loadRegs x => Laws.EncodesIntoRow.loadRegs x

/-- Settles O4: the word is written back from its fields, and every instruction fits its format. -/
theorem decodeThenEncode : Obligations.DecodeThenEncode := by
  unfold Obligations.DecodeThenEncode
  intro w i h
  exact ⟨encode_decode h, (encodesIntoRow i).1⟩

end Sys2Proof
end

section
/-! The opcode map as mask and match (30_encoding.md rules R76 to R78): what a row fixes of the words it
selects, and the words that no row selects. -/

namespace Sys2Proof

theorem bits_eq_extract (w : Word) (lo len : Nat) : bits w lo len = (w.extractLsb' lo len).toNat := by
  rw [bits, BitVec.extractLsb'_toNat, Nat.shiftRight_eq_div_pow]

/-- A field that the row's mask keeps whole is, in every word the row selects, the row's own (R76). -/
theorem bits_of_selects {m f w : Word} (lo len : Nat) (h : OpcodeRow.selects ⟨m, f⟩ w = true)
    (hm : m.extractLsb' lo len = BitVec.allOnes len) : bits w lo len = (f.extractLsb' lo len).toNat := by
  have hw : w &&& m = f := by simpa [OpcodeRow.selects] using h
  rw [bits_eq_extract, ← hw, BitVec.extractLsb'_and, hm, BitVec.and_allOnes]

theorem fieldOp_of_selects {m f w : Word} (h : OpcodeRow.selects ⟨m, f⟩ w = true)
    (hm : m.extractLsb' 12 4 = BitVec.allOnes 4) : fieldOp w = (f.extractLsb' 12 4).toNat :=
  bits_of_selects 12 4 h hm

/-- A word that the row of an instruction selects decodes into that row. -/
theorem decode_of_selects {j : Instr} {w : Word} (h : j.row.selects w = true) :
    ∃ i, decode w = .ok i ∧ i.row = j.row := by
  cases j with
  | halt | cls | ret =>
    have hop := fieldOp_of_selects h (by decide)
    have hnnn := bits_of_selects 0 12 h (by decide)
    simp [decode, hop, decodeGroup0, hnnn, Instr.row]
  | jp | call | ldI | jpV0 | seImm | sneImm | ldImm | addImm | rnd | drw =>
    have hop := fieldOp_of_selects h (by decide)
    simp [decode, hop, Instr.row]
  | seReg | sneReg =>
    have hop := fieldOp_of_selects h (by decide)
    have hn := bits_of_selects 0 4 h (by decide)
    simp [decode, hop, decodeNibble0, hn, Instr.row]
  | ldReg | orReg | andReg | xorReg | addReg | sub | shr | subn | shl =>
    have hop := fieldOp_of_selects h (by decide)
    have hn := bits_of_selects 0 4 h (by decide)
    simp [decode, hop, decodeGroup8, hn, Instr.row]
  | skp | sknp =>
    have hop := fieldOp_of_selects h (by decide)
    have hkk := bits_of_selects 0 8 h (by decide)
    simp [decode, hop, decodeGroupE, hkk, Instr.row]
  | ldVxDT | ldVxK | ldDTVx | ldSTVx | addI | ldF | ldB | storeRegs | loadRegs =>
    have hop := fieldOp_of_selects h (by decide)
    have hkk := bits_of_selects 0 8 h (by decide)
    simp [decode, hop, decodeGroupF, hkk, Instr.row]

/-! ### The map holds every instruction's row, and no other -/

theorem row_mem_opcodeRows (i : Instr) : i.row ∈ opcodeRows := by
  cases i <;> simp only [Instr.row] <;> decide

/-- Settles O5: a row's words decode into the row, so two rows with a word in common are both the row of what
it decodes to. -/
theorem decodeSelectsTheMatchingRow : Obligations.DecodeSelectsTheMatchingRow := by
  unfold Obligations.DecodeSelectsTheMatchingRow
  have selected (w : Word) : ∀ r ∈ opcodeRows, r.selects w = true → ∃ i, decode w = .ok i ∧ i.row = r := by
    intro r hr hw
    obtain ⟨j, -, rfl⟩ := List.mem_map.mp hr
    exact decode_of_selects hw
  refine fun w => ⟨fun i hi => ⟨row_mem_opcodeRows i, ?own, fun r hr hw => ?unique⟩, selected w⟩
  case own =>
    rw [← encode_decode hi]
    exact (encodesIntoRow i).2
  case unique =>
    obtain ⟨i', hi', hrow⟩ := selected w r hr hw
    cases hi.symm.trans hi'
    exact hrow.symm

/-! ### The words no row selects (R78) -/

theorem bits_low (w : Word) (len : Nat) : bits w 0 len = w.toNat % 2 ^ len := by
  simp [bits]

theorem fieldOp_eq_div (w : Word) : fieldOp w = w.toNat / 0x1000 := by
  have hw := w.isLt
  simp only [fieldOp, bits]
  omega

theorem decodeGroup0_rejects (w : Word) :
    (∃ r, decodeGroup0 w = .error r) ↔ bits w 0 12 ∉ [0x000, 0x0E0, 0x0EE] := by
  unfold decodeGroup0
  split <;> simp_all

theorem decodeGroup8_rejects (w : Word) :
    (∃ r, decodeGroup8 w = .error r) ↔ bits w 0 4 ∈ [0x8, 0x9, 0xA, 0xB, 0xC, 0xD, 0xF] := by
  have hlt : bits w 0 4 < 16 := Nat.mod_lt _ (by decide)
  unfold decodeGroup8
  generalize bits w 0 4 = n at *
  interval_cases n <;> simp

theorem decodeGroupE_rejects (w : Word) :
    (∃ r, decodeGroupE w = .error r) ↔ bits w 0 8 ∉ [0x9E, 0xA1] := by
  unfold decodeGroupE
  split <;> simp_all

theorem decodeGroupF_rejects (w : Word) :
    (∃ r, decodeGroupF w = .error r) ↔
      bits w 0 8 ∉ [0x07, 0x0A, 0x15, 0x18, 0x1E, 0x29, 0x33, 0x55, 0x65] := by
  unfold decodeGroupF
  split <;> simp_all

theorem decodeNibble0_rejects (w : Word) (i : Instr) (e : DecodeReject) :
    (∃ r, decodeNibble0 w i e = .error r) ↔ bits w 0 4 ≠ 0 := by
  unfold decodeNibble0
  split <;> simp_all

/-- The list of R78 in terms of the decoder's own fields. -/
theorem unrecognisedWord_iff (w : Word) : UnrecognisedWord w ↔
    (fieldOp w = 0x0 ∧ bits w 0 12 ∉ [0x000, 0x0E0, 0x0EE]) ∨ (fieldOp w = 0x5 ∧ bits w 0 4 ≠ 0) ∨
    (fieldOp w = 0x9 ∧ bits w 0 4 ≠ 0) ∨
    (fieldOp w = 0x8 ∧ bits w 0 4 ∈ [0x8, 0x9, 0xA, 0xB, 0xC, 0xD, 0xF]) ∨
    (fieldOp w = 0xE ∧ bits w 0 8 ∉ [0x9E, 0xA1]) ∨
    (fieldOp w = 0xF ∧ bits w 0 8 ∉ [0x07, 0x0A, 0x15, 0x18, 0x1E, 0x29, 0x33, 0x55, 0x65]) := by
  simp only [fieldOp_eq_div, bits_low]
  rfl

/-- Settles O6: the top nibble picks the group, and each group rejects its own part of the list. -/
theorem rejectedWordsAreTheListedOnes : Obligations.RejectedWordsAreTheListedOnes := by
  unfold Obligations.RejectedWordsAreTheListedOnes
  intro w
  have hlt := fieldOp_lt w
  rw [unrecognisedWord_iff, ← decodeGroup0_rejects, ← decodeGroup8_rejects, ← decodeGroupE_rejects,
    ← decodeGroupF_rejects, ← decodeNibble0_rejects w (.seReg (fieldX w) (fieldY w)) .group5]
  unfold decode
  generalize fieldOp w = op at *
  interval_cases op <;> simp [decodeNibble0_rejects]

end Sys2Proof
end

section
/-! What an instruction can do to the state, said once for the whole instruction set, and the rules over all
instructions that follow from it (10_state.md, 20_memory.md section 5, 60_exceptions.md section 1). -/

namespace Sys2Proof.Machine

/-! ### The effect of an instruction -/

/-- The state operation an instruction is built on, where several instructions share one. -/
inductive Shape where
  /-- one register takes a value -/
  | write (x : Reg)
  /-- one register takes a result, and VF its flag -/
  | flag (x : Reg)
  | skip
  | jump
  | index
  /-- the instruction has an operation of its own -/
  | own

def shapeOf : Instr → Shape
  | .ldImm x _ | .addImm x _ | .ldReg x _ | .orReg x _ | .andReg x _ | .xorReg x _ | .rnd x _
  | .ldVxDT x => .write x
  | .addReg x _ | .sub x _ | .shr x _ | .subn x _ | .shl x _ => .flag x
  | .seImm _ _ | .sneImm _ _ | .seReg _ _ | .sneReg _ _ | .skp _ | .sknp _ => .skip
  | .jp _ | .jpV0 _ => .jump
  | .ldI _ | .addI _ | .ldF _ => .index
  | .halt | .cls | .ret | .call _ | .drw _ _ _ | .ldVxK _ | .ldDTVx _ | .ldSTVx _ | .ldB _
  | .storeRegs _ | .loadRegs _ => .own

/-- The next states an instruction can answer: which operation makes them, whatever the values are. -/
inductive Effect (s : State) : Instr → State → Prop where
  | write {i x} (b : Byte) (h : shapeOf i = .write x) : Effect s i (s.setV x b)
  | flag {i x} (b : Byte) (c : Bool) (h : shapeOf i = .flag x) : Effect s i (s.setVFlag x b c)
  | skip {i} (c : Bool) (h : shapeOf i = .skip) : Effect s i (s.skipIf c)
  | jump {i} (a : Nat) (h : shapeOf i = .jump) : Effect s i (s.setPc a)
  | index {i} (a : Nat) (h : shapeOf i = .index) : Effect s i (s.setI a)
  | halt : Effect s .halt (s.haltWith .haltWord)
  | cls : Effect s .cls (s.setFB FrameBuffer.clear).notifyRender
  | retEmpty (h : s.sp = 0) : Effect s .ret (s.raiseFatal .stackUnderflow (encode .ret))
  | ret (h : s.sp.toNat - 1 < 16) : Effect s .ret (s.popPc h)
  | callFull (nnn : Addr) (h : s.sp = 16) :
      Effect s (.call nnn) (s.raiseFatal .stackOverflow (encode (.call nnn)))
  | call (nnn : Addr) (h : s.sp.toNat < 16) : Effect s (.call nnn) ((s.pushPc h).setPc nnn.toNat)
  | draw (x y : Reg) (n : Nibble) (f : FrameBuffer) (c : Bool) :
      Effect s (.drw x y n) ((s.setFB f).setFlag c).notifyRender
  | keyWait (x : Reg) : Effect s (.ldVxK x) (s.suspend x)
  | setDT (x : Reg) (b : Byte) : Effect s (.ldDTVx x) (s.setDT b)
  | setST (x : Reg) (b : Byte) : Effect s (.ldSTVx x) (s.setST b)
  | storeDigits (x : Reg) (a : Nat) (bs : List Byte) : Effect s (.ldB x) (s.storeBytes a bs)
  | storeRegs (x : Reg) (a : Nat) (bs : List Byte) :
      Effect s (.storeRegs x) ((s.storeBytes a bs).afterBlock x)
  | loadRegs (x : Reg) : Effect s (.loadRegs x) ((s.loadFrom (regsUpTo x)).afterBlock x)

/-- Every next state of `exec` is one of these effects. -/
theorem exec_next {i : Instr} {s t : State} (h : exec i s = .next t) : Effect s i t := by
  cases i with
  | ret =>
    rcases execRet_next h with ⟨h0, rfl⟩ | ⟨hs, -, rfl⟩
    · exact .retEmpty h0
    · exact .ret hs
  | call nnn =>
    rcases execCall_next h with ⟨h16, rfl⟩ | ⟨hs, rfl⟩
    · exact .callFull nnn h16
    · exact .call nnn hs
  | skp | sknp => obtain ⟨k, -, rfl⟩ := State.skipOnKey_next h; exact .skip _ rfl
  | ldImm | addImm | ldReg | orReg | andReg | xorReg | rnd | ldVxDT =>
    obtain rfl := Host.Outcome.next.inj h
    exact .write _ rfl
  | addReg | sub | shr | subn | shl =>
    obtain rfl := Host.Outcome.next.inj h
    exact .flag _ _ rfl
  | seImm | sneImm | seReg | sneReg =>
    obtain rfl := Host.Outcome.next.inj h
    exact .skip _ rfl
  | jp | jpV0 =>
    obtain rfl := Host.Outcome.next.inj h
    exact .jump _ rfl
  | ldI | addI | ldF =>
    obtain rfl := Host.Outcome.next.inj h
    exact .index _ rfl
  | halt | cls | drw | ldVxK | ldDTVx | ldSTVx | ldB | storeRegs | loadRegs =>
    obtain rfl := Host.Outcome.next.inj h
    constructor

/-! ### What every instruction leaves alone -/

/-- Settles O18: of the effects, only a push and a pop write SP or the stack. -/
theorem onlyCallAndRetTouchTheStack : Obligations.OnlyCallAndRetTouchTheStack := by
  unfold Obligations.OnlyCallAndRetTouchTheStack
  intro i s t h hcall hret
  cases exec_next h with
  | ret | retEmpty => exact absurd rfl hret
  | call nnn | callFull nnn => exact absurd rfl (hcall nnn)
  | _ => simp [SameStack]

/-- Settles O19: of the effects, only a byte store run writes memory. -/
theorem onlyStoresTouchMemory : Obligations.OnlyStoresTouchMemory := by
  unfold Obligations.OnlyStoresTouchMemory
  intro i s t h hdigits hblock a
  cases exec_next h with
  | storeDigits x => exact absurd rfl (hdigits x)
  | storeRegs x => exact absurd rfl (hblock x)
  | _ => simp

/-- Settles O20: of the effects, only CLS and DRW write the framebuffer, and both send what they leave. -/
theorem onlyClsAndDrwTouchTheScreen : Obligations.OnlyClsAndDrwTouchTheScreen := by
  unfold Obligations.OnlyClsAndDrwTouchTheScreen
  intro i s t h
  cases exec_next h with
  | cls => exact ⟨fun _ => by simp, fun hcls _ => absurd rfl hcls⟩
  | draw x y n => exact ⟨fun _ => by simp, fun _ hdrw => absurd rfl (hdrw x y n)⟩
  | write _ hi | flag _ _ hi | skip _ hi | jump _ hi | index _ hi =>
    refine ⟨?_, fun _ _ => by simp [SameScreen]⟩
    rintro (rfl | ⟨x, y, n, rfl⟩) <;> cases hi
  | _ => exact ⟨by simp, fun _ _ => by simp [SameScreen]⟩

/-- Settles O21: no effect writes what only the loop writes, and each timer has its one writer. -/
theorem instructionsLeaveKeysAndPacing : Obligations.InstructionsLeaveKeysAndPacing := by
  unfold Obligations.InstructionsLeaveKeysAndPacing
  intro i s t h
  cases exec_next h with
  | setDT x => exact ⟨by simp [SameOutside], fun hdt => absurd rfl (hdt x), fun _ => rfl⟩
  | setST x => exact ⟨by simp [SameOutside], fun _ => rfl, fun hst => absurd rfl (hst x)⟩
  | _ => exact ⟨by simp [SameOutside], fun _ => by simp, fun _ => by simp⟩

/-- An instruction keeps mode and tone, enters a terminal mode, or begins a key wait. -/
theorem Effect.mode_cases {i : Instr} {s t : State} (h : Effect s i t) :
    SameMode s t ∨
    (t.tone = false ∧ (i = .halt ∨ (i = .ret ∧ s.sp = 0) ∨ ((∃ nnn, i = .call nnn) ∧ s.sp = 16))) ∨
    ∃ x, i = .ldVxK x ∧ t = s.suspend x := by
  cases h with
  | halt => exact .inr (.inl ⟨rfl, .inl rfl⟩)
  | retEmpty h0 => exact .inr (.inl ⟨rfl, .inr (.inl ⟨rfl, h0⟩)⟩)
  | callFull nnn h16 => exact .inr (.inl ⟨rfl, .inr (.inr ⟨⟨nnn, rfl⟩, h16⟩)⟩)
  | keyWait x => exact .inr (.inr ⟨x, rfl, rfl⟩)
  | _ => exact .inl (by simp [SameMode])

/-- Settles O22: the two ways of not keeping mode and tone are the four events. -/
theorem onlyFourEventsChangeTheMode : Obligations.OnlyFourEventsChangeTheMode := by
  unfold Obligations.OnlyFourEventsChangeTheMode
  intro i s t h hmode
  rcases (exec_next h).mode_cases with hsame | ⟨-, hhalt | hret | hcall⟩ | ⟨x, hwait, -⟩
  · exact absurd hsame hmode
  · exact .inl hhalt
  · exact .inr (.inr (.inl hret))
  · exact .inr (.inr (.inr hcall))
  · exact .inr (.inl ⟨x, hwait⟩)

/-! ### Where an instruction stops -/

theorem exec_fault {i : Instr} {s : State} {f : Fault} (h : exec i s = .fault f) :
    (s.cfg.keyIndex = .fault ∧ ∃ x, (i = .skp x ∨ i = .sknp x) ∧ 16 ≤ (s.getV x).toNat ∧
      f = .keyIndexOutOfRange (s.getV x)) ∨
    (16 < s.sp.toNat ∧ (i = .ret ∨ ∃ nnn, i = .call nnn) ∧ f = .stackPointerIllegal s.sp) := by
  cases i with
  | skp x =>
    obtain ⟨hpolicy, hx, hf⟩ := State.skipOnKey_fault h
    exact .inl ⟨hpolicy, x, .inl rfl, hx, hf⟩
  | sknp x =>
    obtain ⟨hpolicy, hx, hf⟩ := State.skipOnKey_fault h
    exact .inl ⟨hpolicy, x, .inr rfl, hx, hf⟩
  | ret =>
    obtain ⟨hsp, hf⟩ := execRet_fault h
    exact .inr ⟨hsp, .inl rfl, hf⟩
  | call nnn =>
    obtain ⟨hsp, hf⟩ := execCall_fault h
    exact .inr ⟨hsp, .inr ⟨nnn, rfl⟩, hf⟩
  | _ => nomatch h

theorem execRet_not_refused {s : State} {r : Refusal} : execRet s ≠ .refused r := by
  unfold execRet
  split
  · simp
  · split <;> simp

theorem execCall_not_refused {nnn : Addr} {s : State} {r : Refusal} : execCall nnn s ≠ .refused r := by
  unfold execCall
  split
  · simp
  · split <;> simp

theorem exec_not_refused {i : Instr} {s : State} {r : Refusal} : exec i s ≠ .refused r := by
  cases i with
  | skp | sknp => exact State.skipOnKey_not_refused
  | ret => exact execRet_not_refused
  | call => exact execCall_not_refused
  | _ => exact nofun

end Sys2Proof.Machine
end

section
/-! The CPU step and the iteration around it (40_control.md section 1, 60_exceptions.md section 3): what a
step is on each kind of word and in each mode, where it stops, and what the phases after the instruction leave. -/

namespace Sys2Proof.Machine

/-! ### The CPU step (R100) -/

theorem cpuStep_of_ok {s : State} {i : Instr} (h : decode s.fetchWord = .ok i) :
    cpuStep s = exec i s.advance := by
  simp [cpuStep, h]

theorem cpuStep_of_error {s : State} {r : DecodeReject} (h : decode s.fetchWord = .error r) :
    cpuStep s = s.advance.decodeError s.fetchWord := by
  simp [cpuStep, h]

theorem State.decodeError_strict {s : State} (w : Word) (h : s.cfg.decode = .strict) :
    s.decodeError w = .next (s.emitDiag w s.fetchAddr) := by
  simp [State.decodeError, h]

theorem State.decodeError_refuse {s : State} (w : Word) (h : s.cfg.decode = .refuse) :
    s.decodeError w = .refused (.unrecognisedWord w s.fetchAddr) := by
  simp [State.decodeError, h]

/-- A CPU step that answers a next state has run an instruction, or passed over an unrecognised word. -/
theorem cpuStep_next {s t : State} (h : cpuStep s = .next t) :
    (∃ i, decode s.fetchWord = .ok i ∧ Effect s.advance i t) ∨
    ((∃ r, decode s.fetchWord = .error r) ∧ t = s.advance.emitDiag s.fetchWord s.advance.fetchAddr) := by
  cases hd : decode s.fetchWord with
  | ok i =>
    rw [cpuStep_of_ok hd] at h
    exact .inl ⟨i, rfl, exec_next h⟩
  | error r =>
    rw [cpuStep_of_error hd] at h
    refine .inr ⟨⟨r, rfl⟩, ?_⟩
    cases hp : s.advance.cfg.decode with
    | strict =>
      rw [State.decodeError_strict _ hp] at h
      exact (Host.Outcome.next.inj h).symm
    | refuse =>
      rw [State.decodeError_refuse _ hp] at h
      cases h

theorem cpuStep_fault {s : State} {f : Fault} (h : cpuStep s = .fault f) :
    ∃ i, decode s.fetchWord = .ok i ∧ exec i s.advance = .fault f := by
  cases hd : decode s.fetchWord with
  | ok i => exact ⟨i, rfl, by rwa [cpuStep_of_ok hd] at h⟩
  | error r =>
    rw [cpuStep_of_error hd, State.decodeError] at h
    split at h <;> cases h

theorem cpuStep_refused {s : State} {r : Refusal} (h : cpuStep s = .refused r) :
    s.cfg.decode = .refuse ∧ (∃ e, decode s.fetchWord = .error e) ∧
      r = .unrecognisedWord s.fetchWord s.advance.fetchAddr := by
  cases hd : decode s.fetchWord with
  | ok i =>
    rw [cpuStep_of_ok hd] at h
    exact absurd h exec_not_refused
  | error e =>
    rw [cpuStep_of_error hd] at h
    cases hp : s.advance.cfg.decode with
    | strict =>
      rw [State.decodeError_strict _ hp] at h
      cases h
    | refuse =>
      rw [State.decodeError_refuse _ hp] at h
      exact ⟨hp, ⟨e, rfl⟩, (Host.Outcome.refused.inj h).symm⟩

/-- Settles O8: the two policies for an unrecognised word, each one operation after the fetch advance. -/
theorem unrecognisedWordIsANoOp : Obligations.UnrecognisedWordIsANoOp := by
  unfold Obligations.UnrecognisedWordIsANoOp
  intro s r hr
  refine ⟨s.advance.fetchAddr, s.fetchAddr_advance, fun hstrict => ?strict, fun hrefuse => ?refuse⟩
  case strict =>
    refine ⟨_, (cpuStep_of_error hr).trans (State.decodeError_strict _ hstrict), ?_⟩
    refine ⟨s.advance_toNat, rfl, ?_⟩
    simp [SameRegs, SameMemory, SameStack, SameTimers, SameScreen, SameMode]
  case refuse => exact (cpuStep_of_error hr).trans (State.decodeError_refuse _ hrefuse)

/-! ### One iteration in each mode (R210, R212, R213) -/

/-- The fetched word reads memory and pc alone, so the beginning of an iteration does not change it. -/
@[simp] theorem State.begin_fetchWord (s : State) (inp : Inputs) : (s.begin inp).fetchWord = s.fetchWord := rfl

section
variable {s : State} {inp : Inputs} (hmode : s.mode = .running)
include hmode

theorem iterate_of_next {t : State} (h : cpuStep (s.begin inp) = .next t) :
    iterate inp s = .next (t.finish inp) := by
  simp only [iterate, hmode, h]

theorem iterate_of_fault {f : Fault} (h : cpuStep (s.begin inp) = .fault f) : iterate inp s = .fault f := by
  simp only [iterate, hmode, h]

theorem iterate_of_refused {r : Refusal} (h : cpuStep (s.begin inp) = .refused r) :
    iterate inp s = .refused r := by
  simp only [iterate, hmode, h]

end

theorem iterate_suspended {s : State} {x : Reg} (inp : Inputs) (h : s.mode = .suspended x) :
    iterate inp s = .next ((s.begin inp).finish inp) := by
  simp only [iterate, h]

theorem iterate_terminal {s : State} (inp : Inputs) (h : s.mode.isTerminal = true) :
    iterate inp s = .next s := by
  cases hm : s.mode <;> simp_all [iterate, Mode.isTerminal]

/-- An iteration in Running whose instruction answers a next state goes on to the other phases. -/
theorem iterate_of_exec {s t : State} {inp : Inputs} {i : Instr} (hmode : s.mode = .running)
    (hi : decode s.fetchWord = .ok i) (ht : exec i (s.begin inp).advance = .next t) :
    iterate inp s = .next (t.finish inp) :=
  iterate_of_next hmode ((cpuStep_of_ok (s := s.begin inp) hi).trans ht)

/-- Settles O7: the decoded word is the fetched one, and the iteration in Running is fetch, advance, exec and
the rest. -/
theorem stepRunsTheDecodedInstruction : Obligations.StepRunsTheDecodedInstruction := by
  unfold Obligations.StepRunsTheDecodedInstruction
  intro s i rest hmode _ hdecode
  have hi : decode (s.begin (Config.inputs s.iteration)).fetchWord = .ok i := by
    change decode (wordOfBytes _ _) = _
    simp only [decodeBytes] at hdecode
    split at hdecode <;> cases hdecode
    assumption
  refine ⟨State.advance_toNat _, ?_⟩
  have hcpu := cpuStep_of_ok hi
  cases hexec : exec i (s.begin (Config.inputs s.iteration)).advance with
  | next t => exact iterate_of_next hmode (hcpu.trans hexec)
  | fault f => exact iterate_of_fault hmode (hcpu.trans hexec)
  | refused r => exact iterate_of_refused hmode (hcpu.trans hexec)

/-- Settles O9: in a terminal mode the iteration is the identity. -/
theorem terminalStatesStay : Obligations.TerminalStatesStay := by
  unfold Obligations.TerminalStatesStay
  exact fun s h => iterate_terminal _ h

/-! ### Where a step stops -/

/-- In every mode but Running an iteration answers a next state. -/
theorem iterate_not_running {s : State} (inp : Inputs) (h : s.mode ≠ .running) :
    ∃ t, iterate inp s = .next t := by
  cases hm : s.mode with
  | running => exact absurd hm h
  | suspended x => exact ⟨_, iterate_suspended inp hm⟩
  | halted | fatal => exact ⟨_, iterate_terminal inp (by rw [hm]; rfl)⟩

theorem running_of_stop {s : State} {inp : Inputs} (h : ∀ t, iterate inp s ≠ .next t) : s.mode = .running := by
  by_contra hm
  obtain ⟨t, ht⟩ := iterate_not_running inp hm
  exact h t ht

theorem iterate_fault {s : State} {inp : Inputs} {f : Fault} (h : iterate inp s = .fault f) :
    s.mode = .running ∧ cpuStep (s.begin inp) = .fault f := by
  have hmode : s.mode = .running := running_of_stop (inp := inp) (by simp [h])
  cases hcpu : cpuStep (s.begin inp) with
  | next t => simp [iterate_of_next hmode hcpu] at h
  | fault g => simpa [iterate_of_fault hmode hcpu, hmode] using h
  | refused r => simp [iterate_of_refused hmode hcpu] at h

theorem iterate_refused {s : State} {inp : Inputs} {r : Refusal} (h : iterate inp s = .refused r) :
    s.mode = .running ∧ cpuStep (s.begin inp) = .refused r := by
  have hmode : s.mode = .running := running_of_stop (inp := inp) (by simp [h])
  cases hcpu : cpuStep (s.begin inp) with
  | next t => simp [iterate_of_next hmode hcpu] at h
  | fault g => simp [iterate_of_fault hmode hcpu] at h
  | refused r => simpa [iterate_of_refused hmode hcpu, hmode] using h

/-- Settles O12: only the CPU step of an iteration in Running stops, by a fault of `exec` or by the refusal of
an unrecognised word. -/
theorem stepStopsOnlyWhereTheSpecGivesNoMeaning : Obligations.StepStopsOnlyWhereTheSpecGivesNoMeaning := by
  unfold Obligations.StepStopsOnlyWhereTheSpecGivesNoMeaning
  refine fun s => ⟨fun f hf => ?fault, fun r hr => ?refusal⟩
  case fault =>
    obtain ⟨hmode, hcpu⟩ := iterate_fault hf
    obtain ⟨i, hi, hexec⟩ := cpuStep_fault hcpu
    rw [State.begin_fetchWord] at hi
    refine ⟨hmode, ?_⟩
    rcases exec_fault hexec with ⟨hpolicy, x, hix, hx⟩ | ⟨hsp, hix, hf⟩
    · exact .inl ⟨hpolicy, x, by rcases hix with rfl | rfl <;> simp [hi], hx⟩
    · exact .inr ⟨hsp, by rcases hix with rfl | ⟨nnn, rfl⟩ <;> simp [hi], hf⟩
  case refusal =>
    obtain ⟨hmode, hcpu⟩ := iterate_refused hr
    obtain ⟨hpolicy, hreject, hr⟩ := cpuStep_refused hcpu
    exact ⟨hmode, hpolicy, hreject, _, State.fetchAddr_advance _, hr⟩

/-! ### The phases after the instruction (R206, R210) -/

/-- The conditional tick phase writes the accumulator and the timers, or nothing. -/
@[simp] theorem State.tickPhase_frame (s : State) (e : ℚ≥0) :
    (s.tickPhase e).v = s.v ∧ (s.tickPhase e).i = s.i ∧ (s.tickPhase e).pc = s.pc ∧
    (s.tickPhase e).sp = s.sp ∧ (s.tickPhase e).stack = s.stack ∧ (s.tickPhase e).mem = s.mem ∧
    (s.tickPhase e).fb = s.fb ∧ (s.tickPhase e).key = s.key ∧ (s.tickPhase e).mode = s.mode ∧
    (s.tickPhase e).tone = s.tone ∧ (s.tickPhase e).frames = s.frames ∧
    (s.tickPhase e).diag = s.diag ∧ (s.tickPhase e).rnd = s.rnd ∧
    (s.tickPhase e).iteration = s.iteration ∧ (s.tickPhase e).cfg = s.cfg := by
  rcases s.tickPhase_cases e with ⟨-, h⟩ | ⟨-, h⟩ <;> simp [h]

/-- The rest of an iteration writes keys, mode, tone, timers, the accumulator and the waited-for register. -/
@[simp] theorem State.finish_frame (s : State) (inp : Inputs) :
    (s.finish inp).i = s.i ∧ (s.finish inp).pc = s.pc ∧ (s.finish inp).sp = s.sp ∧
    (s.finish inp).stack = s.stack ∧ (s.finish inp).mem = s.mem ∧ (s.finish inp).fb = s.fb ∧
    (s.finish inp).frames = s.frames ∧ (s.finish inp).diag = s.diag ∧ (s.finish inp).rnd = s.rnd ∧
    (s.finish inp).iteration = s.iteration ∧ (s.finish inp).cfg = s.cfg := by
  rcases s.finish_cases inp with ⟨-, h⟩ | ⟨-, -, h⟩ | ⟨-, -, h⟩ <;> simp [h]

theorem State.sameMemory_of_mem {s t : State} (hmem : t.mem = s.mem) (hcfg : t.cfg = s.cfg) :
    SameMemory s t := by
  intro a
  rw [State.readByte, State.readByte, hmem, hcfg]

/-- The registers after the rest of an iteration are those after its poll. -/
theorem State.finish_v_cases (s : State) (inp : Inputs) :
    (s.finish inp).v = s.v ∨ (s.finish inp).v = (s.poll inp.events).v := by
  rcases s.finish_cases inp with ⟨-, h⟩ | ⟨-, -, h⟩ | ⟨-, -, h⟩ <;> simp [h]

/-- A poll writes no register but the one a key wait names, and that one takes a key number. -/
theorem State.poll_getV (s : State) (es : List InputEvent) (r : Reg) :
    (s.poll es).getV r = s.getV r ∨
    (s.mode = .suspended r ∧ ∃ k : Key, ((s.poll es).getV r).toNat = k.val) := by
  induction es generalizing s with
  | nil => exact .inl rfl
  | cons e es ih =>
    cases e with
    | quit => exact .inl rfl
    | keyUp k => exact ih (s.keyUp k)
    | keyDown k =>
      rcases s.keyDown_cases k with ⟨x, hx, hk⟩ | ⟨hnot, hk⟩ <;> rw [State.poll, hk]
      · rcases ih ((s.setKey k true).resume x k) with h | ⟨hmode, -⟩
        · rw [h, State.getV_resume]
          split
          · subst x
            exact .inr ⟨hx, k, by simp; omega⟩
          · exact .inl rfl
        · simp at hmode
      · rcases ih (s.setKey k true) with h | h
        · exact .inl h
        · exact .inr h

theorem State.finish_getV (s : State) (inp : Inputs) (r : Reg) :
    (s.finish inp).getV r = s.getV r ∨
    (s.mode = .suspended r ∧ ∃ k : Key, ((s.finish inp).getV r).toNat = k.val) := by
  rcases s.finish_v_cases inp with h | h
  · exact .inl (by rw [State.getV, h]; rfl)
  · have hv : (s.finish inp).getV r = (s.poll inp.events).getV r := by rw [State.getV, h]; rfl
    rw [hv]
    exact s.poll_getV inp.events r

/-- Settles O11: the frame of the phases after the instruction, and the one register a wait may write. -/
theorem eventsAndTicksNeverDivertControl : Obligations.EventsAndTicksNeverDivertControl := by
  unfold Obligations.EventsAndTicksNeverDivertControl
  intro s inp
  have hmem : SameMemory s (s.finish inp) := State.sameMemory_of_mem (by simp) (by simp)
  refine ⟨by simp, by simp, by simp [SameStack], hmem, by simp [SameScreen], by simp, fun r hr => ?_⟩
  exact (s.finish_getV inp r).resolve_right fun ⟨hmode, _⟩ => hr hmode

/-- Settles O10: an iteration in the wait is the rest of an iteration alone. -/
theorem keyWaitRunsNoInstruction : Obligations.KeyWaitRunsNoInstruction := by
  unfold Obligations.KeyWaitRunsNoInstruction
  intro s x hmode
  let inp := Config.inputs s.iteration
  refine ⟨(s.begin inp).finish inp, iterate_suspended inp hmode, by simp, by simp, by simp [SameStack],
    State.sameMemory_of_mem (by simp) (by simp), by simp [SameScreen], by simp, by simp,
    fun r hr => ?other, ?waited⟩
  case other =>
    refine ((s.begin inp).finish_getV inp r).resolve_right fun ⟨hr', _⟩ => hr ?_
    exact (Mode.suspended.inj (hmode.symm.trans hr')).symm
  case waited => exact ((s.begin inp).finish_getV inp x).imp_right And.right

end Sys2Proof.Machine
end

section
/-! The invariant (10_state.md sections 2, 3, 6): what each part of an iteration keeps of it, and that a good
state under the default policies never stops. -/

namespace Sys2Proof.Machine

/-! ### Tone (R213, R225) -/

/-- An instruction that ends the run turns tone off. -/
theorem Effect.tone_of_terminal {i : Instr} {s t : State} (h : Effect s i t) (hs : s.mode.isTerminal = false)
    (ht : t.mode.isTerminal = true) : t.tone = false := by
  rcases h.mode_cases with ⟨hmode, -⟩ | ⟨htone, -⟩ | ⟨x, -, rfl⟩
  · rw [hmode, hs] at ht; cases ht
  · exact htone
  · cases ht

theorem cpuStep_tone_of_terminal {s t : State} (h : cpuStep s = .next t) (hs : s.mode.isTerminal = false)
    (ht : t.mode.isTerminal = true) : t.tone = false := by
  rcases cpuStep_next h with ⟨i, -, heffect⟩ | ⟨-, rfl⟩
  · exact heffect.tone_of_terminal hs ht
  · rw [State.emitDiag_mode, State.advance_mode, hs] at ht; cases ht

/-- The rest of an iteration brings tone in step with ST and mode, if a terminal mode has turned it off. -/
theorem State.finish_toneAgrees {s : State} (inp : Inputs) (h : s.mode.isTerminal = true → s.tone = false) :
    (s.finish inp).toneAgrees := by
  unfold State.toneAgrees
  rcases s.finish_cases inp with ⟨hs, e⟩ | ⟨hs, hp, e⟩ | ⟨hs, hp, e⟩ <;> rw [e]
  · simp [hs, h hs]
  · simp [hp, s.poll_terminal inp.events hs hp]
  · simp only [State.toneUpdate_tone, State.toneUpdate_mode, State.toneUpdate_st, State.tickPhase_frame, hp,
      Bool.not_false, Bool.true_and]
    rfl

theorem iterate_toneAgrees {s t : State} {inp : Inputs} (hs : s.mode.isTerminal = false)
    (h : iterate inp s = .next t) : t.toneAgrees := by
  rcases iterate_cases h with ⟨hmode, u, hu, rfl⟩ | ⟨⟨x, hmode⟩, rfl⟩ | ⟨hmode, -⟩
  · exact State.finish_toneAgrees inp fun ht => cpuStep_tone_of_terminal hu hs ht
  · exact State.finish_toneAgrees inp fun ht => by rw [State.begin_mode, hs] at ht; cases ht
  · rw [hs] at hmode; cases hmode

/-- Settles O13: every way an iteration ends brings tone in step. -/
theorem toneFollowsTheSoundTimer : Obligations.ToneFollowsTheSoundTimer := by
  unfold Obligations.ToneFollowsTheSoundTimer
  exact fun s t hs h => iterate_toneAgrees hs h

/-! ### The registers' ranges and the form of memory -/

/-- The invariant without its clause on tone: the part that every phase of an iteration keeps by itself. -/
structure State.InRange (s : State) : Prop where
  pc     : s.pc.toNat < 4096
  sp     : s.sp.toNat ≤ 16
  stack  : ∀ j : Fin 16, (s.stack[j.val]'j.isLt).toNat < 4096
  acc    : 0 ≤ s.acc ∧ s.acc < tickLength
  memory : Memory.wf s.cfg.font s.mem = true

theorem State.inv_iff (s : State) : s.Inv ↔ s.InRange ∧ s.toneAgrees :=
  ⟨fun h => ⟨⟨h.pcInRange, h.spLegal, h.stackInRange, ⟨h.accNonneg, h.accBelowTick⟩, h.memCanonical⟩, h.tone⟩,
    fun ⟨h, ht⟩ => ⟨h.pc, h.sp, h.stack, h.acc.1, h.acc.2, h.memory, ht⟩⟩

/-- What `InRange` speaks of. -/
def SameRanged (s t : State) : Prop :=
  t.pc = s.pc ∧ t.sp = s.sp ∧ t.stack = s.stack ∧ t.acc = s.acc ∧ t.cfg = s.cfg ∧ t.mem = s.mem

theorem State.InRange.of_same {s t : State} (h : s.InRange) (hst : SameRanged s t) : t.InRange := by
  obtain ⟨hpc, hsp, hstack, hacc, hcfg, hmem⟩ := hst
  constructor
  · rw [hpc]; exact h.pc
  · rw [hsp]; exact h.sp
  · simpa only [hstack] using h.stack
  · rw [hacc]; exact h.acc
  · rw [hcfg, hmem]; exact h.memory

theorem State.InRange.setPc {s : State} (h : s.InRange) (a : Nat) : (s.setPc a).InRange := by
  refine ⟨?_, h.sp, h.stack, h.acc, h.memory⟩
  rw [State.setPc_toNat]
  omega

theorem State.InRange.skipIf {s : State} (h : s.InRange) (c : Bool) : (s.skipIf c).InRange := by
  cases c
  · exact h
  · exact h.setPc _

theorem State.InRange.pushPc {s : State} (h : s.InRange) (hs : s.sp.toNat < 16) : (s.pushPc hs).InRange := by
  refine ⟨h.pc, ?_, fun j => ?_, h.acc, h.memory⟩
  · rw [State.pushPc_sp, BitVec.toNat_ofNat]
    omega
  · simp only [State.pushPc_stack, Vector.getElem_set]
    split
    · exact h.pc
    · exact h.stack j

theorem State.InRange.popPc {s : State} (h : s.InRange) (hs : s.sp.toNat - 1 < 16) : (s.popPc hs).InRange := by
  refine State.InRange.setPc (s := { s with sp := BitVec.ofNat 8 (s.sp.toNat - 1) })
    ⟨h.pc, ?_, h.stack, h.acc, h.memory⟩ _
  simp only [BitVec.toNat_ofNat]
  omega

theorem State.InRange.storeBytes {s : State} (h : s.InRange) (a : Nat) (bs : List Byte) :
    (s.storeBytes a bs).InRange := by
  constructor
  · simpa using h.pc
  · simpa using h.sp
  · simpa using h.stack
  · simpa using h.acc
  · exact State.storeBytes_wf bs a h.memory

theorem State.InRange.timerTick {s : State} (h : s.InRange) (e : ℚ≥0) : (s.timerTick e).InRange :=
  ⟨h.pc, h.sp, h.stack, State.timerTick_acc e h.acc.1, h.memory⟩

theorem Effect.inRange {i : Instr} {s t : State} (h : Effect s i t) (hs : s.InRange) : t.InRange := by
  cases h with
  | skip c => exact hs.skipIf c
  | jump a => exact hs.setPc a
  | ret hsp => exact hs.popPc hsp
  | call nnn hsp => exact (hs.pushPc hsp).setPc _
  | storeDigits _ a bs => exact hs.storeBytes a bs
  | storeRegs _ a bs => exact (hs.storeBytes a bs).of_same (by simp [SameRanged])
  | _ => exact hs.of_same (by simp [SameRanged])

theorem cpuStep_inRange {s t : State} (h : cpuStep s = .next t) (hs : s.InRange) : t.InRange := by
  have hadvance : s.advance.InRange := hs.setPc _
  rcases cpuStep_next h with ⟨i, -, heffect⟩ | ⟨-, rfl⟩
  · exact heffect.inRange hadvance
  · exact hadvance.of_same (by simp [SameRanged])

theorem State.InRange.finish {s : State} (h : s.InRange) (inp : Inputs) : (s.finish inp).InRange := by
  have hpoll : (s.poll inp.events).InRange := h.of_same (by simp [SameRanged])
  rcases s.finish_cases inp with ⟨-, e⟩ | ⟨-, -, e⟩ | ⟨-, -, e⟩ <;> rw [e]
  · exact h
  · exact hpoll
  · refine State.InRange.of_same (s := (s.poll inp.events).tickPhase inp.elapsed) ?_ (by simp [SameRanged])
    rcases (s.poll inp.events).tickPhase_cases inp.elapsed with ⟨-, e'⟩ | ⟨-, e'⟩ <;> rw [e']
    · exact hpoll
    · exact hpoll.timerTick inp.elapsed

theorem iterate_inRange {s t : State} {inp : Inputs} (hs : s.InRange) (h : iterate inp s = .next t) :
    t.InRange := by
  have hbegin : (s.begin inp).InRange := hs.of_same (by simp [SameRanged])
  rcases iterate_cases h with ⟨-, u, hu, rfl⟩ | ⟨-, rfl⟩ | ⟨-, rfl⟩
  · exact (cpuStep_inRange hu hbegin).finish inp
  · exact hbegin.finish inp
  · exact hs

/-- Settles O16: the ranges are kept by each phase, tone is brought in step by every iteration, and a terminal
state stays as it is. -/
theorem stepKeepsTheInvariant : Obligations.StepKeepsTheInvariant := by
  unfold Obligations.StepKeepsTheInvariant
  intro s t hs h
  obtain ⟨hrange, htone⟩ := s.inv_iff.mp hs
  refine t.inv_iff.mpr ⟨iterate_inRange hrange h, ?_⟩
  cases hmode : s.mode.isTerminal with
  | false => exact iterate_toneAgrees hmode h
  | true =>
    obtain rfl := Host.Outcome.next.inj ((iterate_terminal _ hmode).symm.trans h)
    exact htone

/-! ### A good state under the default policies -/

theorem cpuStep_cfg {s t : State} (h : cpuStep s = .next t) : t.cfg = s.cfg := by
  rcases cpuStep_next h with ⟨i, -, heffect⟩ | ⟨-, rfl⟩
  · cases heffect <;> simp
  · rfl

theorem iterate_cfg {s t : State} {inp : Inputs} (h : iterate inp s = .next t) : t.cfg = s.cfg := by
  rcases iterate_cases h with ⟨-, u, hu, rfl⟩ | ⟨-, rfl⟩ | ⟨-, rfl⟩
  · simpa using cpuStep_cfg hu
  · simp
  · rfl

/-- Settles O17: each of the stops of O12 needs another policy or an SP that the invariant rules out. -/
theorem stepAlwaysCompletes : Obligations.StepAlwaysCompletes := by
  unfold Obligations.StepAlwaysCompletes
  intro s hs ⟨hkey, hdecode⟩
  obtain ⟨hfault, hrefused⟩ := stepStopsOnlyWhereTheSpecGivesNoMeaning s
  cases h : step s with
  | next t => exact ⟨t, rfl, iterate_cfg h⟩
  | fault f =>
    rcases (hfault f h).2 with ⟨hpolicy, -⟩ | ⟨hsp, -⟩
    · rw [hkey] at hpolicy; cases hpolicy
    · exact absurd hs.spLegal (by omega)
  | refused r =>
    obtain ⟨-, hpolicy, -⟩ := hrefused r h
    rw [hdecode] at hpolicy
    cases hpolicy

/-! ### Reset and boot (R241 to R247) -/

/-- The machine as reset leaves it under any configuration. -/
theorem State.reset_inRange (cfg : Config) : ({ State.reset with cfg := cfg } : State).InRange := by
  refine ⟨show (0x200 : Word).toNat < 4096 by decide, Nat.zero_le _, fun j => ?_, ?_, Memory.wf_nil _⟩
  · simp [State.reset]
  · simp [State.reset, tickLength]

theorem State.boot_eq_some {cfg : Config} {image : List Byte} {s : State} (h : State.boot cfg image = some s) :
    image.length ≤ 3584 ∧ s = State.loadImage { State.reset with cfg := cfg } image := by
  unfold State.boot at h
  split at h <;> cases h
  exact ⟨by simpa [imageFits] using ‹imageFits image = true›, rfl⟩

/-- Settles O14: boot without an image, under the default configuration. -/
theorem resetMeetsTheInvariant : Obligations.ResetMeetsTheInvariant := by
  unfold Obligations.ResetMeetsTheInvariant
  exact State.reset.inv_iff.mpr ⟨State.reset_inRange defaultConfig, rfl⟩

/-- Settles O15: the loader is a byte store run from the reset state. -/
theorem bootMeetsTheInvariant : Obligations.BootMeetsTheInvariant := by
  unfold Obligations.BootMeetsTheInvariant
  intro cfg image s h
  obtain ⟨-, rfl⟩ := State.boot_eq_some h
  refine (State.inv_iff _).mpr ⟨(State.reset_inRange cfg).storeBytes 512 image, ?_⟩
  simp [State.toneAgrees, State.loadImage, State.reset]

end Sys2Proof.Machine
end

section
/-! Encoding patterns written as sums (30_encoding.md section 3), and the instructions that write registers and
I: arithmetic, logic, shifts, random, ADD I and LD F (42_alu.md, 43_index_memory.md). -/

namespace Sys2Proof

/-! ### A pattern is an encoder's word -/

theorem ofNat_eq_encodeXY {op f k : Nat} (x y : Reg) (h : k = op * 4096 + x.val * 256 + y.val * 16 + f) :
    BitVec.ofNat 16 k = encodeXY op x y f := by
  rw [h, encodeXY]

theorem ofNat_eq_encodeX {op ff k : Nat} (x : Reg) (h : k = op * 4096 + x.val * 256 + ff) :
    BitVec.ofNat 16 k = encodeX op x ff := by
  rw [h, encodeX]

end Sys2Proof

namespace Sys2Proof.Machine

/-! ### A result and its flag (R22) -/

theorem State.getV_setVFlag_flag (s : State) (x : Reg) (b : Byte) (c : Bool) :
    (s.setVFlag x b c).getV VF = flagByte c := by
  rw [State.getV_setVFlag, if_pos rfl]

theorem State.onlyRegs_setVFlag (s : State) (x : Reg) (b : Byte) (c : Bool) :
    OnlyRegs (fun r => r = x ∨ r = VF) s (s.setVFlag x b c) := by
  refine ⟨fun r hr => ?_, rfl, rfl, fun a => rfl, ?_⟩
  · obtain ⟨hx, hf⟩ := not_or.mp hr
    rw [State.getV_setVFlag, if_neg hf, if_neg hx]
  · simp [SameRest, SameStack, SameTimers, SameScreen, SameMode, SameOutside]

theorem flagByte_eq_one_iff (c : Bool) : flagByte c = 1 ↔ c = true := by
  cases c <;> simp [flagByte]

theorem State.resultAndFlag_setVFlag (s : State) {x : Reg} {b : Byte} {c : Bool} {result : Nat} {flag : Prop}
    (hb : b.toNat = result) (hc : c = true ↔ flag) : ResultAndFlag x s (s.setVFlag x b c) result flag := by
  refine ⟨fun hx => ?_, fun hflag => ?_, fun hflag => ?_, s.onlyRegs_setVFlag x b c⟩
  · rw [State.getV_setVFlag, if_neg hx, if_pos rfl, hb]
  · rw [State.getV_setVFlag_flag, hc.mpr hflag]; rfl
  · rw [State.getV_setVFlag_flag, Bool.eq_false_iff.mpr (mt hc.mp hflag)]; rfl

/-! ### The flags as conditions on the operands (R120) -/

theorem carryOut_iff (a b : Byte) : carryOut a b = true ↔ a.toNat + b.toNat > 255 := by
  simp [carryOut]

theorem notBorrow_iff (a b : Byte) : notBorrow a b = true ↔ b.toNat ≤ a.toNat := by
  simp [notBorrow]

theorem lowBit_iff (b : Byte) : lowBit b = true ↔ b.getLsbD 0 = true := by
  simp [lowBit, BitVec.getLsbD, Nat.testBit]

theorem highBit_iff (b : Byte) : highBit b = true ↔ b.getLsbD 7 = true := by
  have hb := b.isLt
  simp only [highBit, BitVec.getLsbD, Nat.testBit_eq_decide_div_mod_eq, decide_eq_true_eq]
  omega

theorem subByte_eq_difference (a b : Byte) : (subByte a b).toNat = Difference a b := by
  have ha := a.isLt
  have hb := b.isLt
  rw [subByte_toNat, Difference]
  split <;> omega

/-- Settles O34: the sum and its carry, as a result and its flag. -/
theorem addWithCarry : Obligations.AddWithCarry := by
  unfold Obligations.AddWithCarry
  exact fun x y s => ⟨_, rfl, s.resultAndFlag_setVFlag (addByte_toNat _ _) (carryOut_iff _ _)⟩

/-- Settles O35: the two differences and their NOT-borrows. -/
theorem subtractBothWays : Obligations.SubtractBothWays := by
  unfold Obligations.SubtractBothWays
  exact ⟨fun x y s => ⟨_, rfl, s.resultAndFlag_setVFlag (subByte_eq_difference _ _) (notBorrow_iff _ _)⟩,
    fun x y s => ⟨_, rfl, s.resultAndFlag_setVFlag (subByte_eq_difference _ _) (notBorrow_iff _ _)⟩⟩

/-- Settles O36: the shifted Vy and the bit that falls out of it. -/
theorem shiftsTakeVy : Obligations.ShiftsTakeVy := by
  unfold Obligations.ShiftsTakeVy
  exact ⟨fun x y s => ⟨_, rfl, s.resultAndFlag_setVFlag (shiftRight_toNat _) (lowBit_iff _)⟩,
    fun x y s => ⟨_, rfl, s.resultAndFlag_setVFlag (shiftLeft_toNat _) (highBit_iff _)⟩⟩

/-! ### Plain register writes -/

/-- Settles O33: the patterns are encoder's words, and each meaning is one register write. -/
theorem addImmediateCopyAndLogic : Obligations.AddImmediateCopyAndLogic := by
  unfold Obligations.AddImmediateCopyAndLogic
  refine ⟨fun x kk => decode_encode (.addImm x kk), fun x y => ⟨decode_encode (.ldReg x y), ?orWord, ?andWord,
    ?xorWord⟩, fun x kk s => ?add, fun x y s => ?copy, fun x y s => ?or, fun x y s => ?and, fun x y s => ?xor⟩
  case orWord => rw [ofNat_eq_encodeXY x y (op := 8) (f := 1) (by omega)]; exact decode_encode (.orReg x y)
  case andWord => rw [ofNat_eq_encodeXY x y (op := 8) (f := 2) (by omega)]; exact decode_encode (.andReg x y)
  case xorWord => rw [ofNat_eq_encodeXY x y (op := 8) (f := 3) (by omega)]; exact decode_encode (.xorReg x y)
  case add =>
    refine ⟨_, rfl, ?_, s.onlyRegs_setV _ _⟩
    rw [State.getV_setV_self, addByte_toNat]
  case copy => exact ⟨_, rfl, s.getV_setV_self _ _, s.onlyRegs_setV _ _⟩
  case or =>
    refine ⟨_, rfl, fun b => ?_, s.onlyRegs_setV _ _⟩
    rw [State.getV_setV_self, BitVec.getLsbD_or]
  case and =>
    refine ⟨_, rfl, fun b => ?_, s.onlyRegs_setV _ _⟩
    rw [State.getV_setV_self, BitVec.getLsbD_and]
  case xor =>
    refine ⟨_, rfl, fun b => ?_, s.onlyRegs_setV _ _⟩
    rw [State.getV_setV_self, BitVec.getLsbD_xor, Bool.bne_eq_xor]

theorem exec_rnd (x : Reg) (kk : Byte) (s : State) : exec (.rnd x kk) s = .next (s.setV x (s.rnd &&& kk)) := rfl

/-- Settles O37: the byte on the port is masked bit by bit; in a step the port holds the iteration's draw, and
no later phase writes a register in Running. -/
theorem rndMasksTheDraw : Obligations.RndMasksTheDraw := by
  unfold Obligations.RndMasksTheDraw
  refine ⟨fun x kk s => ?effect, fun x kk s hmode hdecode => ?inStep⟩
  case effect =>
    refine ⟨_, exec_rnd x kk s, fun b => ?_, s.onlyRegs_setV _ _⟩
    rw [State.getV_setV_self, BitVec.getLsbD_and]
  case inStep =>
    refine ⟨_, iterate_of_exec hmode hdecode (exec_rnd x kk _), ?_⟩
    rcases State.finish_getV _ (Config.inputs s.iteration) x with h | ⟨hwait, -⟩
    · rw [h, State.getV_setV_self]
      rfl
    · cases hmode.symm.trans hwait

/-- Settles O39: each is one write to I; 5 times a byte fits it. -/
theorem addIndexAndGlyph : Obligations.AddIndexAndGlyph := by
  unfold Obligations.AddIndexAndGlyph
  refine ⟨fun x s => ⟨_, rfl, ?sum, s.onlyI_setI _⟩, fun x s => ⟨_, rfl, ?glyph, s.onlyI_setI _⟩⟩
  case sum => rw [State.setI_i, BitVec.toNat_ofNat]
  case glyph =>
    have hx := (s.getV x).isLt
    rw [State.setI_i, BitVec.toNat_ofNat, glyphAddr]
    omega

end Sys2Proof.Machine
end

section
/-! Skips (41_skip.md, 45_keys_timers.md section 1): each is one conditional fetch advance. -/

namespace Sys2Proof.Machine

theorem State.skipPc_skipIf (s : State) {c : Bool} {taken : Prop} (h : c = true ↔ taken) :
    SkipPc s (s.skipIf c) taken := by
  refine ⟨fun ht => ?_, fun ht => ?_⟩
  · rw [h.mpr ht]
    exact s.advance_toNat
  · rw [Bool.eq_false_iff.mpr (mt h.mp ht)]
    rfl

theorem State.onlyPc_skipIf (s : State) (c : Bool) : OnlyPc s (s.skipIf c) := by
  refine ⟨s.skipIf_getV c, by simp, s.skipIf_readByte c, ?_⟩
  simp [SameRest, SameStack, SameTimers, SameScreen, SameMode, SameOutside]

/-- A skip instruction is a conditional fetch advance, and skips on what its condition says. -/
theorem skips_of_eq_skipIf {i : Instr} {s : State} {c : Bool} {taken : Prop}
    (h : exec i s = .next (s.skipIf c)) (hc : c = true ↔ taken) :
    ∃ t, exec i s = .next t ∧ SkipPc s t taken ∧ OnlyPc s t :=
  ⟨_, h, s.skipPc_skipIf hc, s.onlyPc_skipIf c⟩

/-- Settles O30: the patterns are encoder's words, and each meaning is a skip. -/
theorem immediateSkips : Obligations.ImmediateSkips := by
  unfold Obligations.ImmediateSkips
  exact ⟨fun x kk => ⟨decode_encode (.seImm x kk), decode_encode (.sneImm x kk)⟩,
    fun x kk s => skips_of_eq_skipIf rfl beq_iff_eq, fun x kk s => skips_of_eq_skipIf rfl bne_iff_ne⟩

theorem decodeNibble0_of_ne {w : Word} (i : Instr) (r : DecodeReject) (h : bits w 0 4 ≠ 0) :
    decodeNibble0 w i r = .error r := by
  unfold decodeNibble0
  split
  · contradiction
  · rfl

/-- Settles O31: as O30; a last nibble other than 0 is no word of these rows. -/
theorem registerSkips : Obligations.RegisterSkips := by
  unfold Obligations.RegisterSkips
  refine ⟨fun x y => ⟨decode_encode (.seReg x y), decode_encode (.sneReg x y)⟩, fun x y n hn => ?rejected,
    fun x y s => skips_of_eq_skipIf rfl beq_iff_eq, fun x y s => skips_of_eq_skipIf rfl bne_iff_ne⟩
  case rejected =>
    have hn' : n.val ≠ 0 := fun h => hn (Fin.ext h)
    rw [ofNat_eq_encodeXY x y (op := 5) rfl, ofNat_eq_encodeXY x y (op := 9) rfl]
    constructor <;> simp [decode, decodeNibble0_of_ne, hn']

/-! ### Key skips under the two policies (R176) -/

theorem State.skipOnKey_of_some {s : State} {x : Reg} {k : Key}
    (h : keyOf s.cfg.keyIndex (s.getV x) = some k) (pressed : Bool) :
    s.skipOnKey x pressed = .next (s.skipIf (s.getKey k == pressed)) := by
  simp [State.skipOnKey, h]

theorem keyOf_mask {b : Byte} {k : Key} (h : k.val = b.toNat % 16) : keyOf .mask b = some k :=
  congrArg some (Fin.ext h.symm)

theorem keyOf_fault_of_lt {b : Byte} {k : Key} (h : k.val = b.toNat) : keyOf .fault b = some k := by
  have hlt : b.toNat < 16 := h ▸ k.isLt
  rw [keyOf, dif_pos hlt]
  exact congrArg some (Fin.ext h.symm)

theorem keyOf_fault_of_ge {b : Byte} (h : 16 ≤ b.toNat) : keyOf .fault b = none :=
  dif_neg (by omega)

/-- SKP and SKNP on a key number the policy gives a meaning. -/
theorem keySkips_of_keyOf {s : State} {x : Reg} {k : Key} (h : keyOf s.cfg.keyIndex (s.getV x) = some k) :
    (∃ t, exec (.skp x) s = .next t ∧ SkipPc s t (s.getKey k = true) ∧ OnlyPc s t) ∧
    (∃ t, exec (.sknp x) s = .next t ∧ SkipPc s t (s.getKey k = false) ∧ OnlyPc s t) :=
  ⟨skips_of_eq_skipIf (State.skipOnKey_of_some h true) beq_iff_eq,
    skips_of_eq_skipIf (State.skipOnKey_of_some h false) beq_iff_eq⟩

/-- Settles O50: under the mask every value names a key. -/
theorem keySkipsUnderMask : Obligations.KeySkipsUnderMask := by
  unfold Obligations.KeySkipsUnderMask
  exact fun x s k hpolicy hk => keySkips_of_keyOf (hpolicy ▸ keyOf_mask hk)

/-- Settles O51: below 16 a value names its key; from 16 on it names none. -/
theorem keySkipsUnderFaultPolicy : Obligations.KeySkipsUnderFaultPolicy := by
  unfold Obligations.KeySkipsUnderFaultPolicy
  refine fun x s hpolicy => ⟨fun k hk => keySkips_of_keyOf (hpolicy ▸ keyOf_fault_of_lt hk), fun hge => ?_⟩
  have hnone : keyOf s.cfg.keyIndex (s.getV x) = none := hpolicy ▸ keyOf_fault_of_ge hge
  have hfault (pressed : Bool) : s.skipOnKey x pressed = .fault (.keyIndexOutOfRange (s.getV x)) := by
    simp [State.skipOnKey, hnone]
  exact ⟨hfault true, hfault false⟩

end Sys2Proof.Machine
end

section
/-! Halt and control transfer (40_control.md, 60_exceptions.md sections 1 to 3). -/

namespace Sys2Proof.Machine

/-! ### Jumps -/

theorem State.onlyPc_setPc (s : State) (a : Nat) : OnlyPc s (s.setPc a) := by
  refine ⟨s.setPc_getV a, rfl, s.setPc_readByte a, ?_⟩
  simp [SameRest, SameStack, SameTimers, SameScreen, SameMode, SameOutside]

theorem State.setPc_addr_toNat (s : State) (nnn : Addr) : (s.setPc nnn.toNat).pc.toNat = nnn.toNat := by
  rw [State.setPc_toNat, Nat.mod_eq_of_lt nnn.isLt]

/-- Settles O25: each jump is one write to pc. -/
theorem jumpsSetPc : Obligations.JumpsSetPc := by
  unfold Obligations.JumpsSetPc
  exact ⟨fun nnn s => ⟨_, rfl, s.setPc_addr_toNat nnn, s.onlyPc_setPc _⟩,
    fun nnn s => ⟨_, rfl, s.setPc_toNat _, s.onlyPc_setPc _⟩⟩

/-! ### Call and return (R27, R28) -/

/-- Settles O26: CALL with a free slot is a push and a jump. -/
theorem callPushesAndJumps : Obligations.CallPushesAndJumps := by
  unfold Obligations.CallPushesAndJumps
  intro nnn s h
  refine ⟨_, execCall_of_lt h, State.setPc_addr_toNat _ nnn, ?sp, fun j => ?stack, ?frame⟩
  case sp =>
    rw [State.setPc_sp, State.pushPc_sp, BitVec.toNat_ofNat]
    omega
  case stack => simp [Vector.getElem_set, eq_comm]
  case frame => simp [SameRegs, SameMemory, SameTimers, SameScreen, SameMode, SameOutside]

/-- Settles O27: RET with an entry is a pop. -/
theorem retPopsAndReturns : Obligations.RetPopsAndReturns := by
  unfold Obligations.RetPopsAndReturns
  intro s j h
  have h0 : s.sp ≠ 0 := by
    rintro h0
    simp [h0] at h
  have hj : s.sp.toNat - 1 = j.val := by omega
  refine ⟨_, execRet_of_le h0 (by omega), ?sp, ?pc, ?frame⟩
  case sp =>
    rw [State.popPc_sp, hj, BitVec.toNat_ofNat]
    omega
  case pc =>
    have hmod : (s.stack[j]).toNat % 4096 < 65536 := by omega
    simp only [State.popPc_pc, hj, BitVec.toNat_ofNat]
    exact Nat.mod_eq_of_lt hmod
  case frame => simp [SameRegs, SameMemory, SameTimers, SameScreen, SameMode, SameOutside]

/-- Settles O29: an SP above 16 is neither of the boundary values nor a free slot or an entry. -/
theorem illegalStackPointerFaults : Obligations.IllegalStackPointerFaults := by
  unfold Obligations.IllegalStackPointerFaults
  refine fun s h => ⟨?ret, fun nnn => ?call⟩
  case ret =>
    have h0 : s.sp ≠ 0 := by rintro h0; simp [h0] at h
    exact (if_neg h0).trans (dif_neg (by omega))
  case call =>
    have h16 : s.sp ≠ 16 := by rintro h16; simp [h16] at h
    exact (if_neg h16).trans (dif_neg (by omega))

/-! ### Entering a terminal mode (R203, R205, R207) -/

theorem execCall_full {s : State} (nnn : Addr) (h : s.sp = 16) :
    exec (.call nnn) s = .next (s.raiseFatal .stackOverflow (encode (.call nnn))) :=
  if_pos h

theorem execRet_empty {s : State} (h : s.sp = 0) :
    exec .ret s = .next (s.raiseFatal .stackUnderflow (encode .ret)) :=
  if_pos h

theorem State.enterTerminal_leaves (s : State) (m : Mode) :
    SameCore s (s.enterTerminal m) ∧ SameStack s (s.enterTerminal m) ∧ SameTimers s (s.enterTerminal m) ∧
    SameScreen s (s.enterTerminal m) ∧ SameOutside s (s.enterTerminal m) := by
  simp [SameCore, SameRegs, SameMemory, SameStack, SameTimers, SameScreen, SameOutside]

theorem State.fetchAddr_toNat (s : State) : s.fetchAddr.toNat = (s.pc.toNat + 4096 - 2) % 4096 := by
  rw [State.fetchAddr, BitVec.toNat_ofNat]
  omega

theorem State.finish_of_terminal {s : State} (inp : Inputs) (h : s.mode.isTerminal = true) :
    s.finish inp = s :=
  if_pos h

/-- A step whose instruction enters a terminal mode ends there: nothing follows in its iteration. -/
theorem step_enterTerminal {s : State} {i : Instr} {m : Mode} (hmode : s.mode = .running)
    (hi : decode s.fetchWord = .ok i) (hm : m.isTerminal = true)
    (hexec : exec i (s.begin (Config.inputs s.iteration)).advance =
      .next ((s.begin (Config.inputs s.iteration)).advance.enterTerminal m)) :
    ∃ t, step s = .next t ∧ t.mode = m ∧ EndsWithoutPollOrTick s t := by
  refine ⟨_, (iterate_of_exec hmode hi hexec).trans (by rw [State.finish_of_terminal _ hm]), rfl, ?_⟩
  refine ⟨State.advance_toNat _, ?_⟩
  simp [SameRegs, SameMemory, SameStack, SameTimers, SameScreen]

/-- Settles O28: the two violations enter Fatal with the word that decodes to them and with the address before
the fetch advance. -/
theorem stackViolationsAreFatal : Obligations.StackViolationsAreFatal := by
  unfold Obligations.StackViolationsAreFatal
  refine ⟨fun nnn s h => ?call, fun s h => ?ret, fun nnn s hmode h hi => ?callStep, fun s hmode h hi => ?retStep⟩
  case call => exact ⟨_, _, execCall_full nnn h, rfl, s.fetchAddr_toNat, rfl, s.enterTerminal_leaves _⟩
  case ret => exact ⟨_, _, execRet_empty h, rfl, s.fetchAddr_toNat, rfl, s.enterTerminal_leaves _⟩
  case callStep =>
    obtain ⟨t, ht, hmode', hends⟩ := step_enterTerminal hmode hi rfl (execCall_full nnn h)
    exact ⟨t, _, ht, encode_decode hi ▸ hmode', State.fetchAddr_advance _, hends⟩
  case retStep =>
    obtain ⟨t, ht, hmode', hends⟩ := step_enterTerminal hmode hi rfl (execRet_empty h)
    exact ⟨t, _, ht, encode_decode hi ▸ hmode', State.fetchAddr_advance _, hends⟩

/-- The recognised words of group 0 are the three fixed ones (R78, strict). -/
theorem decode_group0_reject {w : Word} (hw : w.toNat < 0x1000) (h : w.toNat ∉ [0x000, 0x0E0, 0x0EE]) :
    decode w = .error .group0 := by
  have hop : fieldOp w = 0 := by rw [fieldOp_eq_div]; omega
  have hnnn : bits w 0 12 = w.toNat := by rw [bits_low]; omega
  have hgroup : decodeGroup0 w = .error .group0 := by
    unfold decodeGroup0
    rw [hnnn]
    split <;> simp_all
  simpa only [decode, hop] using hgroup

/-- Settles O24: HALT is the word 0, enters Halted, and nothing follows in its iteration. -/
theorem haltHalts : Obligations.HaltHalts := by
  unfold Obligations.HaltHalts
  refine ⟨fun w => ⟨fun h => ?word, ?decodes⟩, fun w => decode_group0_reject, fun s => ?effect,
    fun s hmode hhi hlo => ?inStep, fun s inp => State.finish_of_terminal inp⟩
  case word => exact (encode_decode h).symm
  case decodes => rintro rfl; exact decode_encode .halt
  case effect => exact ⟨_, rfl, rfl, rfl, s.enterTerminal_leaves _⟩
  case inStep =>
    have hword : s.fetchWord = 0 := by rw [State.fetchWord, State.readWord, hhi, hlo]; rfl
    exact step_enterTerminal (i := .halt) hmode (by rw [hword]; exact decode_encode .halt) rfl rfl

end Sys2Proof.Machine
end

section
/-! Memory through the bus and the transfers at I (20_memory.md, 43_index_memory.md). -/

namespace Sys2Proof.Machine

/-! ### The bus -/

theorem State.readByte_congr (s : State) {a b : Nat} (h : maskAddr a = maskAddr b) :
    s.readByte a = s.readByte b := by
  rw [State.readByte, h, State.readByte]

theorem wordOfBytes_toNat (hi lo : Byte) : (wordOfBytes hi lo).toNat = hi.toNat * 256 + lo.toNat := by
  have hhi := hi.isLt
  have hlo := lo.isLt
  rw [wordOfBytes, BitVec.toNat_ofNat]
  omega

theorem highByte_toNat (w : Word) : (highByte w).toNat = w.toNat / 256 := by
  have hw := w.isLt
  simp only [highByte, bits, BitVec.toNat_ofNat]
  omega

theorem lowByte_toNat (w : Word) : (lowByte w).toNat = w.toNat % 256 := by
  simp only [lowByte, bits, BitVec.toNat_ofNat]
  omega

theorem maskAddr_succ_ne (a : Nat) : maskAddr (a + 1) ≠ maskAddr a := by
  simp only [maskAddr]
  omega

theorem State.readByte_writeWord_high (s : State) (a : Nat) (w : Word) :
    (s.writeWord a w).readByte a = highByte w := by
  rw [State.writeWord, State.readByte_writeByte, if_neg (maskAddr_succ_ne a), State.readByte_writeByte,
    if_pos rfl]

theorem State.readByte_writeWord_low (s : State) (a : Nat) (w : Word) :
    (s.writeWord a w).readByte (a + 1) = lowByte w := by
  rw [State.writeWord, State.readByte_writeByte, if_pos rfl]

/-- Settles O45: the two byte writes are at different addresses, also where the second wraps. -/
theorem wordWriteThenRead : Obligations.WordWriteThenRead := by
  unfold Obligations.WordWriteThenRead
  refine fun s a w => ⟨?word, ?high, ?low, fun c hc hc' => ?other⟩
  case word =>
    rw [State.readWord, State.readByte_writeWord_high, State.readByte_writeWord_low, wordOfBytes_high_low]
  case high => rw [State.readByte_writeWord_high, highByte_toNat]
  case low => rw [State.readByte_writeWord_low, lowByte_toNat]
  case other =>
    rw [State.writeWord, State.readByte_writeByte, if_neg hc'.symm, State.readByte_writeByte, if_neg hc.symm]

/-! ### LD B,Vx -/

theorem State.storeBytes_leaves (s : State) (a : Nat) (bs : List Byte) :
    SameRegs s (s.storeBytes a bs) ∧ (s.storeBytes a bs).i = s.i ∧ (s.storeBytes a bs).pc = s.pc ∧
    SameRest s (s.storeBytes a bs) := by
  simp [SameRegs, SameRest, SameStack, SameTimers, SameScreen, SameMode, SameOutside]

theorem exec_ldB (x : Reg) (s : State) :
    exec (.ldB x) s = .next (s.storeBytes s.i.toNat (bcdDigits (s.getV x))) := rfl

/-- Settles O40: a store run of the three digits from I on. -/
theorem storeDecimalDigits : Obligations.StoreDecimalDigits := by
  unfold Obligations.StoreDecimalDigits
  refine ⟨fun x => ?pattern, fun x s => ⟨_, exec_ldB x s, ?effect⟩⟩
  case pattern =>
    rw [ofNat_eq_encodeX x (op := 0xF) (ff := 0x33) (by omega)]
    exact decode_encode (.ldB x)
  case effect =>
    have hx := (s.getV x).isLt
    have digit (j : Nat) (hj : j < (bcdDigits (s.getV x)).length) :=
      s.storeBytes_inside (bcdDigits (s.getV x)) s.i.toNat j hj (Nat.le_of_lt (show 3 < 4096 by decide))
    refine ⟨?_, ?_, ?_, fun a ha => ?_, s.storeBytes_leaves _ _⟩
    · refine (congrArg BitVec.toNat (digit 0 (show 0 < 3 by decide))).trans ?_
      simp only [bcdDigits, List.getElem_cons_zero, BitVec.toNat_ofNat]
      omega
    · refine (congrArg BitVec.toNat (digit 1 (show 1 < 3 by decide))).trans ?_
      simp only [bcdDigits, List.getElem_cons_succ, List.getElem_cons_zero, BitVec.toNat_ofNat]
      omega
    · refine (congrArg BitVec.toNat (digit 2 (show 2 < 3 by decide))).trans ?_
      simp only [bcdDigits, List.getElem_cons_succ, List.getElem_cons_zero, BitVec.toNat_ofNat]
      omega
    · exact s.storeBytes_outside _ _ a fun j hj => (ha j hj).symm

/-! ### Block transfers -/

theorem State.afterBlock_leavesI {s t : State} (x : Reg) (hi : t.i = s.i) (hcfg : t.cfg = s.cfg) :
    BlockLeavesI x s (t.afterBlock x) := by
  refine ⟨fun h => ?_, fun h => ?_⟩ <;> simp [State.afterBlock_i, hi, hcfg, h]

theorem State.afterBlock_sameRest {s t : State} (x : Reg) (h : SameRest s t) :
    SameRest s (t.afterBlock x) := by
  simpa [SameRest, SameStack, SameTimers, SameScreen, SameMode, SameOutside] using h

theorem exec_storeRegs (x : Reg) (s : State) :
    exec (.storeRegs x) s = .next ((s.storeBytes s.i.toNat ((regsUpTo x).map s.getV)).afterBlock x) := rfl

theorem exec_loadRegs (x : Reg) (s : State) :
    exec (.loadRegs x) s = .next ((s.loadFrom (regsUpTo x)).afterBlock x) := rfl

theorem length_block (x : Reg) (s : State) : ((regsUpTo x).map s.getV).length = x.val + 1 := by
  rw [List.length_map, regsUpTo_length]

/-- The block holds register `r` in place `r`. -/
theorem block_getElem {x r : Reg} (s : State) (hr : r.val < ((regsUpTo x).map s.getV).length) :
    ((regsUpTo x).map s.getV)[r.val] = s.getV r := by
  rw [List.getElem_map, Fin.ext (regsUpTo_getElem x r.val (by simpa using hr))]

/-- Settles O41: a store run of registers 0 to x from I on. -/
theorem storeRegisterBlock : Obligations.StoreRegisterBlock := by
  unfold Obligations.StoreRegisterBlock
  intro x s
  have hlen := length_block x s
  obtain ⟨hregs, hi, hpc, hrest⟩ := s.storeBytes_leaves s.i.toNat ((regsUpTo x).map s.getV)
  refine ⟨_, exec_storeRegs x s, fun r hr => ?inside, fun a ha => ?outside, fun r => ?regs, ?pc,
    State.afterBlock_leavesI x hi (by simp), State.afterBlock_sameRest x hrest⟩
  case inside =>
    rw [State.afterBlock_readByte, State.storeBytes_inside _ _ _ _ (by omega) (by omega), block_getElem]
  case outside =>
    rw [State.afterBlock_readByte]
    exact s.storeBytes_outside _ _ a fun j hj => (ha j (by omega)).symm
  case regs => rw [State.afterBlock_getV, hregs r]
  case pc => simp

/-- Settles O42: registers 0 to x take their bytes, and memory is only read. -/
theorem loadRegisterBlock : Obligations.LoadRegisterBlock := by
  unfold Obligations.LoadRegisterBlock
  intro x s
  refine ⟨_, exec_loadRegs x s, fun r hr => ?loaded, fun r hr => ?kept, by simp,
    State.afterBlock_leavesI x (by simp) (by simp), fun a => by simp, State.afterBlock_sameRest x ?rest⟩
  case loaded =>
    rw [State.afterBlock_getV, State.getV_loadFrom, if_pos ((mem_regsUpTo x r).mpr hr)]
    rfl
  case kept => rw [State.afterBlock_getV, State.getV_loadFrom, if_neg (mt (mem_regsUpTo x r).mp hr)]
  case rest => simp [SameRest, SameStack, SameTimers, SameScreen, SameMode, SameOutside]

/-- What LD [I],Vx stores, read off the next state it answers. -/
theorem storeRegs_next {x : Reg} {s t : State} (h : exec (.storeRegs x) s = .next t) :
    (∀ r : Reg, r.val ≤ x.val → t.readByte (s.i.toNat + r.val) = s.getV r) ∧ t.pc = s.pc := by
  obtain ⟨t', ht', hstored, -, -, hpc, -⟩ := storeRegisterBlock x s
  obtain rfl := Host.Outcome.next.inj (ht'.symm.trans h)
  exact ⟨hstored, hpc⟩

/-- Settles O43: each register is loaded from the byte it was stored to. -/
theorem blockRoundTrip : Obligations.BlockRoundTrip := by
  unfold Obligations.BlockRoundTrip
  intro x s t u h hmem hi
  obtain ⟨v, hv, hloaded, -⟩ := loadRegisterBlock x u
  refine ⟨v, hv, fun r hr => ?_⟩
  calc v.getV r = u.readByte (u.i.toNat + r.val) := hloaded r hr
    _ = t.readByte (s.i.toNat + r.val) := by rw [hmem, hi]
    _ = s.getV r := (storeRegs_next h).1 r hr

/-- Settles O44: the two bytes at pc are the two at I, also where the second wraps. -/
theorem storeIsSeenByTheNextFetch : Obligations.StoreIsSeenByTheNextFetch := by
  unfold Obligations.StoreIsSeenByTheNextFetch
  intro x s t hx hmask h
  obtain ⟨hstored, hpc⟩ := storeRegs_next h
  have hmask' : maskAddr (s.pc.toNat + 1) = maskAddr (s.i.toNat + 1) := by
    simp only [maskAddr] at hmask ⊢
    omega
  have hhi : t.readByte s.pc.toNat = s.getV 0 :=
    (t.readByte_congr hmask.symm).trans (hstored 0 (Nat.zero_le _))
  have hlo : t.readByte (s.pc.toNat + 1) = s.getV 1 := (t.readByte_congr hmask').trans (hstored 1 hx)
  rw [State.fetchWord, State.readWord, hpc, hhi, hlo, wordOfBytes_toNat]

end Sys2Proof.Machine
end

section
/-! Boot (70_reset_and_hazards.md): what the loader leaves in memory and in every other element. -/

namespace Sys2Proof.Machine

theorem State.boot_eq_none_iff (cfg : Config) (image : List Byte) :
    State.boot cfg image = none ↔ 3584 < image.length := by
  simp [State.boot, imageFits]

/-- Before the image is placed, memory reads as the font and zeros. -/
theorem State.reset_readByte (cfg : Config) (a : Nat) :
    ({ State.reset with cfg := cfg } : State).readByte a = unlistedByte cfg.font (maskAddr a) := rfl

theorem maskAddr_of_lt {a : Nat} (h : a < 4096) : maskAddr a = a := Nat.mod_eq_of_lt h

theorem unlistedByte_of_lt (font : Vector Byte 80) (j : Fin 80) : unlistedByte font j.val = font[j] :=
  dif_pos j.isLt

theorem unlistedByte_of_ge (font : Vector Byte 80) {a : Nat} (h : 80 ≤ a) : unlistedByte font a = 0 :=
  dif_neg (by omega)

/-- Below 4096 and outside the image, a booted machine reads the font and zeros. -/
theorem State.loadImage_outside {cfg : Config} {image : List Byte} {a : Nat} (himage : image.length ≤ 3584)
    (ha : a < 512 ∨ 512 + image.length ≤ a) (ha' : a < 4096) :
    (State.loadImage { State.reset with cfg := cfg } image).readByte a = unlistedByte cfg.font a := by
  rw [State.loadImage, State.storeBytes_outside, State.reset_readByte, maskAddr_of_lt ha']
  intro j hj
  rw [maskAddr_of_lt ha', maskAddr_of_lt (by omega)]
  omega

/-- Settles O60: the loader is one store run from the reset state, which writes nothing but memory. -/
theorem bootLeavesTheResetValues : Obligations.BootLeavesTheResetValues := by
  unfold Obligations.BootLeavesTheResetValues
  refine ⟨rfl, fun cfg image => ⟨State.boot_eq_none_iff cfg image, fun s h => ?_⟩⟩
  obtain ⟨himage, rfl⟩ := State.boot_eq_some h
  refine ⟨fun j => ?font, fun j => ?image, fun a ha => ?zeros, ?registers⟩
  case font => rw [State.loadImage_outside himage (by omega) (by omega), unlistedByte_of_lt]
  case image => exact State.storeBytes_inside _ image 512 j.val j.isLt (by omega)
  case zeros => rw [State.loadImage_outside himage (by omega) (by omega), unlistedByte_of_ge _ (by omega)]
  case registers =>
    simp [State.loadImage, State.reset, State.getV, State.getKey, FrameBuffer.pixel]

end Sys2Proof.Machine
end

section
/-! Keys in the poll phase and the key wait (60_exceptions.md sections 2, 3 and 6). -/

namespace Sys2Proof.Machine

theorem not_quit_of_keyUps {es : List InputEvent} (h : ∀ e ∈ es, ∃ k, e = .keyUp k) : .quit ∉ es := by
  intro hq
  obtain ⟨k, hk⟩ := h _ hq
  cases hk

/-- Key-ups touch the key table only. -/
theorem State.poll_keyUps (s : State) {es : List InputEvent} (h : ∀ e ∈ es, ∃ k, e = .keyUp k) :
    (s.poll es).mode = s.mode ∧ (s.poll es).v = s.v := by
  induction es generalizing s with
  | nil => exact ⟨rfl, rfl⟩
  | cons e es ih =>
    obtain ⟨⟨k, rfl⟩, hes⟩ := List.forall_mem_cons.mp h
    exact ih (s.keyUp k) hes

theorem State.keyDown_running {s : State} (k : Key) (h : s.mode = .running) : s.keyDown k = s.setKey k true := by
  rw [State.keyDown, h]

theorem State.keyDown_suspended {s : State} {x : Reg} (k : Key) (h : s.mode = .suspended x) :
    s.keyDown k = (s.setKey k true).resume x k := by
  rw [State.keyDown, h]

/-- In Running, events without a Quit touch the key table only. -/
theorem State.poll_running {s : State} {es : List InputEvent} (hmode : s.mode = .running) (h : .quit ∉ es) :
    (s.poll es).mode = .running ∧ (s.poll es).v = s.v := by
  induction es generalizing s with
  | nil => exact ⟨hmode, rfl⟩
  | cons e es ih =>
    simp only [List.mem_cons, not_or] at h
    obtain ⟨he, hes⟩ := h
    cases e with
    | keyDown k =>
      rw [State.poll, State.keyDown_running k hmode]
      exact ih (s := s.setKey k true) hmode hes
    | keyUp k => exact ih (s := s.keyUp k) hmode hes
    | quit => exact absurd rfl he

/-- The first key-down ends the wait with its number in the register, and nothing without a Quit changes
that (D19). -/
theorem State.poll_completes {s : State} {x : Reg} {before after : List InputEvent} {k : Key}
    (hmode : s.mode = .suspended x) (hbefore : ∀ e ∈ before, ∃ j, e = .keyUp j) (hafter : .quit ∉ after) :
    (s.poll (before ++ .keyDown k :: after)).mode = .running ∧
    (s.poll (before ++ .keyDown k :: after)).v = s.v.set x.val (BitVec.ofNat 8 k.val) x.isLt := by
  obtain ⟨hmode', hv⟩ := s.poll_keyUps hbefore
  rw [State.poll_append _ _ (not_quit_of_keyUps hbefore), State.poll,
    State.keyDown_suspended k (hmode'.trans hmode)]
  obtain ⟨hrun, hv'⟩ := State.poll_running (s := ((s.poll before).setKey k true).resume x k) rfl hafter
  refine ⟨hrun, hv'.trans ?_⟩
  simp only [State.resume_v, State.setKey_v, hv]

theorem State.getV_of_v_eq {s t : State} (h : t.v = s.v) (r : Reg) : t.getV r = s.getV r := by
  rw [State.getV, h, State.getV]

/-- The registers after a key number has gone to `x`. -/
theorem State.getV_of_v_set {s t : State} {x : Reg} {k : Key}
    (h : t.v = s.v.set x.val (BitVec.ofNat 8 k.val) x.isLt) :
    (t.getV x).toNat = k.val ∧ SameRegsBut (· = x) s t := by
  have hget (r : Reg) : t.getV r = (s.resume x k).getV r := State.getV_of_v_eq h r
  refine ⟨?_, fun r hr => ?_⟩
  · rw [hget, State.getV_resume, if_pos rfl, BitVec.toNat_ofNat]
    omega
  · rw [hget, State.getV_resume, if_neg (Ne.symm hr)]

/-- Settles O54: key-ups leave the wait on, and the first key-down ends it. -/
theorem keyWaitEndsAtTheFirstKeyDown : Obligations.KeyWaitEndsAtTheFirstKeyDown := by
  unfold Obligations.KeyWaitEndsAtTheFirstKeyDown
  intro s x before hmode hbefore
  obtain ⟨hmode', hv⟩ := s.poll_keyUps hbefore
  refine ⟨⟨hmode'.trans hmode, State.getV_of_v_eq hv⟩, fun k after hafter => ?_⟩
  obtain ⟨hrun, hv⟩ := State.poll_completes (k := k) hmode hbefore hafter
  exact ⟨hrun, State.getV_of_v_set hv⟩

theorem State.getKey_keyDown (s : State) (j k : Key) :
    (s.keyDown j).getKey k = if j = k then true else s.getKey k := by
  rcases s.keyDown_cases j with ⟨x, -, h⟩ | ⟨-, h⟩ <;> rw [h]
  · rw [State.resume_getKey, State.getKey_setKey]
  · rw [State.getKey_setKey]

/-- Settles O55: one event after the other, in step with the fold. -/
theorem keyTableFollowsTheEvents : Obligations.KeyTableFollowsTheEvents := by
  unfold Obligations.KeyTableFollowsTheEvents
  intro s es k h
  induction es generalizing s with
  | nil => rfl
  | cons e es ih =>
    simp only [List.mem_cons, not_or] at h
    obtain ⟨he, hes⟩ := h
    cases e with
    | keyDown j =>
      rw [State.poll, ih _ hes, State.getKey_keyDown]
      rfl
    | keyUp j =>
      rw [State.poll, ih _ hes, State.keyUp_eq, State.getKey_setKey]
      rfl
    | quit => exact absurd rfl he

/-- The poll phase up to a Quit, which halts the loop. -/
theorem State.poll_quit (s : State) {before : List InputEvent} (after : List InputEvent) (h : .quit ∉ before) :
    s.poll (before ++ .quit :: after) = (s.poll before).haltWith .quit :=
  s.poll_append _ h

/-- Settles O56: the poll ends in a terminal mode at the Quit, so neither tick nor tone phase follows. -/
theorem quitEndsTheIteration : Obligations.QuitEndsTheIteration := by
  unfold Obligations.QuitEndsTheIteration
  intro s inp before after hs hbefore hevents
  have hpoll : s.poll inp.events = (s.poll before).haltWith .quit := by rw [hevents, s.poll_quit after hbefore]
  have hfinish : s.finish inp = (s.poll before).haltWith .quit := by
    rcases s.finish_cases inp with ⟨hs', -⟩ | ⟨-, -, h⟩ | ⟨-, hp, -⟩
    · rw [hs] at hs'; cases hs'
    · rw [h, hpoll]
    · rw [hpoll] at hp; cases hp
  rw [hfinish]
  exact ⟨rfl, rfl, fun k => keyTableFollowsTheEvents s before k hbefore, rfl, by simp [SameTimers], by simp⟩

end Sys2Proof.Machine
end

section
/-! Timers: their transfers, the tick phase, and both in the key wait (45_keys_timers.md, 60_exceptions.md
section 4). -/

namespace Sys2Proof.Machine

/-! ### The tick (R216, R217) -/

theorem State.timerTick_dt_toNat (s : State) (e : ℚ≥0) :
    (s.timerTick e).dt.toNat = s.dt.toNat - wholeTicks (s.acc + (e : Rat)) :=
  decay_toNat _ _

theorem State.timerTick_st_toNat (s : State) (e : ℚ≥0) :
    (s.timerTick e).st.toNat = s.st.toNat - wholeTicks (s.acc + (e : Rat)) :=
  decay_toNat _ _

theorem State.timerTick_acc_eq (s : State) (e : ℚ≥0) :
    (s.timerTick e).acc = s.acc + e - (wholeTicks (s.acc + (e : Rat)) : Rat) / 60 := by
  rw [div_eq_mul_one_div]
  rfl

theorem exec_ldDTVx (x : Reg) (s : State) : exec (.ldDTVx x) s = .next (s.setDT (s.getV x)) := rfl

/-- Settles O52: three transfers of one operation each, and the tick by the one number of sixtieths. -/
theorem timerTransfersAndDecay : Obligations.TimerTransfersAndDecay := by
  unfold Obligations.TimerTransfersAndDecay
  refine ⟨fun x s => ⟨_, rfl, s.getV_setV_self x s.dt, s.onlyRegs_setV x s.dt⟩,
    fun x s => ⟨_, exec_ldDTVx x s, rfl, rfl, ?delay⟩, fun x s => ⟨_, rfl, rfl, rfl, ?sound⟩,
    fun s e k hle hlt => ?tick⟩
  case delay => simp [SameCore, SameRegs, SameMemory, SameStack, SameScreen, SameMode, SameOutside]
  case sound => simp [SameCore, SameRegs, SameMemory, SameStack, SameScreen, SameMode, SameOutside]
  case tick => rw [State.timerTick_dt_toNat, wholeTicks_eq hle hlt]

/-- Settles O53: one change of mode. -/
theorem keyWaitSuspends : Obligations.KeyWaitSuspends := by
  unfold Obligations.KeyWaitSuspends
  refine fun x s => ⟨s.suspend x, rfl, rfl, rfl, ?_⟩
  simp [SameCore, SameRegs, SameMemory, SameStack, SameTimers, SameScreen, SameOutside]

/-! ### Many ticks (D17) -/

/-- Ticks one after the other write the accumulator and the timers and nothing else. -/
theorem foldl_timerTick_frame (times : List ℚ≥0) (s : State) :
    SameCore s (times.foldl State.timerTick s) ∧ SameStack s (times.foldl State.timerTick s) ∧
    SameScreen s (times.foldl State.timerTick s) ∧ SameMode s (times.foldl State.timerTick s) ∧
    (times.foldl State.timerTick s).key = s.key ∧ (times.foldl State.timerTick s).diag = s.diag ∧
    (times.foldl State.timerTick s).rnd = s.rnd ∧
    (times.foldl State.timerTick s).iteration = s.iteration ∧
    (times.foldl State.timerTick s).cfg = s.cfg := by
  induction times generalizing s with
  | nil => simp [SameCore, SameRegs, SameMemory, SameStack, SameScreen, SameMode]
  | cons e times ih =>
    simpa [SameCore, SameRegs, SameMemory, SameStack, SameScreen, SameMode, State.getV, State.readByte]
      using ih (s.timerTick e)

/-- The accumulator and the timers after many ticks: the sixtieths add up, because each tick keeps the exact
remainder. -/
theorem foldl_timerTick_sum (times : List ℚ≥0) (s : State) (h0 : 0 ≤ s.acc) (h1 : s.acc < 1 / 60) :
    ∃ k : Nat, (k : Rat) / 60 ≤ s.acc + (times.sum : ℚ≥0) ∧
      s.acc + (times.sum : ℚ≥0) < ((k : Rat) + 1) / 60 ∧
      (times.foldl State.timerTick s).acc = s.acc + (times.sum : ℚ≥0) - (k : Rat) / 60 ∧
      (times.foldl State.timerTick s).dt.toNat = s.dt.toNat - k ∧
      (times.foldl State.timerTick s).st.toNat = s.st.toNat - k := by
  induction times generalizing s with
  | nil => exact ⟨0, by simpa using h0, by simpa using h1, by simp, rfl, rfl⟩
  | cons e times ih =>
    obtain ⟨hacc0, hacc1⟩ := State.timerTick_acc e h0
    obtain ⟨k, hle, hlt, hacc, hdt, hst⟩ := ih (s.timerTick e) hacc0 hacc1
    rw [State.timerTick_acc_eq] at hle hlt hacc
    have hsum : (((e :: times).sum : ℚ≥0) : Rat) = e + (times.sum : ℚ≥0) := by
      rw [List.sum_cons, NNRat.cast_add]
    refine ⟨wholeTicks (s.acc + (e : Rat)) + k, ?_, ?_, ?_, ?_, ?_⟩
    · rw [hsum, Nat.cast_add]; linarith
    · rw [hsum, Nat.cast_add]; linarith
    · rw [List.foldl_cons, hacc, hsum, Nat.cast_add]; ring
    · rw [List.foldl_cons, hdt, State.timerTick_dt_toNat, Nat.sub_sub]
    · rw [List.foldl_cons, hst, State.timerTick_st_toNat, Nat.sub_sub]

/-- Settles O57: the sum of the ticks, and the frame. -/
theorem ticksDoNotDrift : Obligations.TicksDoNotDrift := by
  unfold Obligations.TicksDoNotDrift
  intro s times h0 h1
  obtain ⟨k, hle, hlt, hacc, hdt, hst⟩ := foldl_timerTick_sum times s h0 h1
  exact ⟨k, _, rfl, hle, hlt, hacc, hdt, hst, foldl_timerTick_frame times s⟩

/-! ### The tick phase of an iteration (R210, R218) -/

/-- An iteration that no Halt, Fatal or Quit ends goes through tick and tone. -/
theorem State.finish_of_poll {s : State} {inp : Inputs} (hs : s.mode.isTerminal = false)
    (hp : (s.poll inp.events).mode.isTerminal = false) :
    s.finish inp = ((s.poll inp.events).tickPhase inp.elapsed).toneUpdate := by
  simp only [State.finish, hs, hp, Bool.false_eq_true, if_false]

theorem State.tickPhase_running {s : State} (e : ℚ≥0) (hmode : s.mode = .running) :
    s.tickPhase e = s.timerTick e := by
  simp [State.tickPhase, State.ticksFrozen, hmode]

theorem State.tickPhase_freeze {s : State} {x : Reg} (e : ℚ≥0) (hmode : s.mode = .suspended x)
    (hpolicy : s.cfg.timersDuringWait = .freeze) : s.tickPhase e = s := by
  simp [State.tickPhase, State.ticksFrozen, hmode, hpolicy]

theorem State.tickPhase_keepRunning {s : State} (e : ℚ≥0) (hpolicy : s.cfg.timersDuringWait = .keepRunning) :
    s.tickPhase e = s.timerTick e := by
  simp [State.tickPhase, State.ticksFrozen, hpolicy]

/-- The timers and the accumulator of two states are the same. -/
def SameClock (s t : State) : Prop := t.dt = s.dt ∧ t.st = s.st ∧ t.acc = s.acc

/-- A tick reads only the clock it writes. -/
theorem SameClock.ticked {s p : State} (h : SameClock s p) (e : ℚ≥0) :
    Ticked s (p.timerTick e).toneUpdate e := by
  obtain ⟨hdt, hst, hacc⟩ := h
  simp [Ticked, State.timerTick, hdt, hst, hacc]

theorem SameClock.poll {s u : State} (h : SameClock s u) (es : List InputEvent) :
    SameClock s (u.poll es) := by
  simpa [SameClock] using h

/-- The two kinds of iteration that wait for a key are the rest of an iteration from one kind of state. -/
theorem iterate_of_waitsForKey {s : State} {x : Reg} (inp : Inputs) (h : WaitsForKey s x) :
    ∃ u, iterate inp s = .next (u.finish inp) ∧ u.mode = .suspended x ∧ u.cfg = s.cfg ∧ SameClock s u := by
  rcases h with hmode | ⟨hmode, hi⟩
  · exact ⟨s.begin inp, iterate_suspended inp hmode, hmode, rfl, rfl, rfl, rfl⟩
  · exact ⟨(s.begin inp).advance.suspend x, iterate_of_exec hmode hi rfl, rfl, rfl, rfl, rfl, rfl⟩

/-- Settles O58: key-ups leave the wait on, and the policy decides on the tick; a key-down ends it before the
tick phase. -/
theorem timersDuringTheKeyWait : Obligations.TimersDuringTheKeyWait := by
  unfold Obligations.TimersDuringTheKeyWait
  intro s x inp hwaits
  obtain ⟨u, hu, hmode, hcfg, hclock⟩ := iterate_of_waitsForKey inp hwaits
  have hs : u.mode.isTerminal = false := by rw [hmode]; rfl
  have hpollClock := hclock.poll inp.events
  have hpollCfg : (u.poll inp.events).cfg = s.cfg := by simpa using hcfg
  refine ⟨fun hevents => ?waiting, fun before after k hbefore hafter hevents => ?completed⟩
  case waiting =>
    have hp : (u.poll inp.events).mode = .suspended x := (u.poll_keyUps hevents).1.trans hmode
    have hfinish := State.finish_of_poll hs (by rw [hp]; rfl)
    refine ⟨_, hu, by simpa [hfinish] using hp, fun hpolicy => ?_, fun hpolicy => ?_⟩
    · rw [hfinish, State.tickPhase_freeze _ hp (hpollCfg.symm ▸ hpolicy)]
      obtain ⟨hdt, hst, hacc⟩ := hpollClock
      exact ⟨⟨hdt, hst⟩, hacc⟩
    · rw [hfinish, State.tickPhase_keepRunning _ (hpollCfg.symm ▸ hpolicy)]
      exact hpollClock.ticked inp.elapsed
  case completed =>
    obtain ⟨hp, hv⟩ := State.poll_completes (k := k) hmode hbefore hafter
    rw [← hevents] at hp hv
    have hfinish := State.finish_of_poll hs (by rw [hp]; rfl)
    rw [State.tickPhase_running _ hp] at hfinish
    refine ⟨_, hu, ?_, ?_, ?_⟩ <;> rw [hfinish]
    · exact hp
    · exact (State.getV_of_v_set hv).1
    · exact hpollClock.ticked inp.elapsed

/-- Settles O59: the write comes before the tick phase of its own iteration. -/
theorem loadedTimerTicksInTheSameIteration : Obligations.LoadedTimerTicksInTheSameIteration := by
  unfold Obligations.LoadedTimerTicksInTheSameIteration
  intro s x inp k hmode hi hevents _ hle hlt
  have hrun : iterate inp s = .next (((s.begin inp).advance.setDT (s.getV x)).finish inp) :=
    iterate_of_exec hmode hi (exec_ldDTVx x _)
  have hmode' : ((s.begin inp).advance.setDT (s.getV x)).mode = .running := hmode
  have hpoll : ((s.begin inp).advance.setDT (s.getV x)).poll inp.events =
      (s.begin inp).advance.setDT (s.getV x) := by rw [hevents, State.poll]
  have hlive : ((s.begin inp).advance.setDT (s.getV x)).mode.isTerminal = false := by rw [hmode']; rfl
  refine ⟨_, hrun, ?_⟩
  rw [State.finish_of_poll hlive (by rw [hpoll, hlive]), hpoll, State.tickPhase_running _ hmode',
    State.toneUpdate_dt, State.timerTick_dt_toNat]
  exact congrArg (_ - ·) (wholeTicks_eq hle hlt)

end Sys2Proof.Machine
end

section
/-! The sprite compositor (44_draw.md): the pixels and the collision of DRW, first row by row and bit by bit,
then as one XOR of the screen with the sprite. -/

namespace Sys2Proof.Machine

/-! ### Offsets from the origin, with wrap (R160) -/

/-- How many rows below row `y` a row lies. -/
def rowOffset (y r : Nat) : Nat := (r + 32 - y % 32) % 32

/-- How many columns to the right of column `x` a column lies. -/
def colOffset (x c : Nat) : Nat := (c + 64 - x % 64) % 64

theorem row_eq_iff {y j r : Nat} (hj : j < 32) : (y + j) % 32 = r % 32 ↔ rowOffset y r = j := by
  unfold rowOffset
  omega

theorem col_eq_iff {x b c : Nat} (hb : b < 64) : (x + b) % 64 = c % 64 ↔ colOffset x c = b := by
  unfold colOffset
  omega

theorem FrameBuffer.pixel_congr (f : FrameBuffer) {r r' c c' : Nat} (hr : r % 32 = r' % 32)
    (hc : c % 64 = c' % 64) : FrameBuffer.pixel f r c = FrameBuffer.pixel f r' c' := by
  simp only [FrameBuffer.pixel, hr, hc]

/-! ### One row of the sprite (R162) -/

/-- The first `m` bits of a sprite byte. -/
def plotBits (byte : Byte) (row x : Nat) (k : Canvas) (m : Nat) : Canvas :=
  (List.range m).foldl (fun c b => plotBit (spriteBit byte b) row (x + b) c) k

theorem plotRow_eq (byte : Byte) (row x : Nat) (k : Canvas) : plotRow byte row x k = plotBits byte row x k 8 := rfl

theorem plotBits_succ (byte : Byte) (row x : Nat) (k : Canvas) (m : Nat) :
    plotBits byte row x k (m + 1) = plotBit (spriteBit byte m) row (x + m) (plotBits byte row x k m) := by
  simp [plotBits, List.range_succ]

/-- The bits go to their own row, each to its own column. -/
theorem plotBits_pixel (byte : Byte) (row x : Nat) (k : Canvas) {m : Nat} (hm : m ≤ 64) (r c : Nat) :
    FrameBuffer.pixel (plotBits byte row x k m).1 r c =
      (FrameBuffer.pixel k.1 r c ^^ (decide (row % 32 = r % 32) && decide (colOffset x c < m) &&
        spriteBit byte (colOffset x c))) := by
  induction m with
  | zero => simp [plotBits]
  | succ m ih =>
    rw [plotBits_succ, (plotBit_spec _ _ _ _ _ _).1, ih (by omega)]
    simp only [col_eq_iff (show m < 64 by omega)]
    by_cases hrow : row % 32 = r % 32
    · rcases Nat.lt_trichotomy (colOffset x c) m with hlt | rfl | hgt
      · simp [hrow, hlt, Nat.ne_of_lt hlt, Nat.lt_succ_of_lt hlt]
      · simp [hrow]
      · simp [hrow, Nat.ne_of_gt hgt, Nat.not_lt_of_gt hgt, Nat.not_lt_of_ge hgt]
    · simp [hrow]

/-- A collision of the row is one of its bits on a pixel that was set before the row: no bit of the row lands
on the pixel of another. -/
theorem plotBits_collision (byte : Byte) (row x : Nat) (k : Canvas) {m : Nat} (hm : m ≤ 64) :
    (plotBits byte row x k m).2 = true ↔ k.2 = true ∨
      ∃ b < m, FrameBuffer.pixel k.1 row (x + b) = true ∧ spriteBit byte b = true := by
  induction m with
  | zero => simp [plotBits]
  | succ m ih =>
    have hfresh : FrameBuffer.pixel (plotBits byte row x k m).1 row (x + m) =
        FrameBuffer.pixel k.1 row (x + m) := by
      rw [plotBits_pixel byte row x k (by omega), (col_eq_iff (show m < 64 by omega)).mp rfl]
      simp
    rw [plotBits_succ, (plotBit_spec _ _ _ 0 0 _).2, hfresh, Bool.or_eq_true, ih (by omega), Bool.and_eq_true,
      or_assoc, Nat.exists_lt_succ_right]

/-! ### The whole sprite -/

/-- The first `m` rows of the sprite. -/
def plotRows (s : State) (origin x y m : Nat) : Canvas :=
  (List.range m).foldl (fun c r => plotRow (s.readByte (origin + r)) (y + r) x c) (s.fb, false)

theorem drawSprite_eq (s : State) (origin n x y : Nat) : drawSprite s origin n x y = plotRows s origin x y n := rfl

theorem plotRows_succ (s : State) (origin x y m : Nat) :
    plotRows s origin x y (m + 1) =
      plotBits (s.readByte (origin + m)) (y + m) x (plotRows s origin x y m) 8 := by
  simp [plotRows, List.range_succ, plotRow_eq]

/-- Whether the sprite of the `m` bytes from `origin` on has a set bit on pixel (r, c) when it is drawn at
column `x` and row `y`. -/
def spriteAt (s : State) (origin x y m r c : Nat) : Bool :=
  decide (rowOffset y r < m) && decide (colOffset x c < 8) &&
    spriteBit (s.readByte (origin + rowOffset y r)) (colOffset x c)

theorem plotRows_pixel (s : State) (origin x y : Nat) {m : Nat} (hm : m ≤ 32) (r c : Nat) :
    FrameBuffer.pixel (plotRows s origin x y m).1 r c =
      (FrameBuffer.pixel s.fb r c ^^ spriteAt s origin x y m r c) := by
  induction m with
  | zero => simp [plotRows, spriteAt]
  | succ m ih =>
    rw [plotRows_succ, plotBits_pixel _ _ _ _ (by decide), ih (by omega)]
    simp only [row_eq_iff (show m < 32 by omega), spriteAt]
    rcases Nat.lt_trichotomy (rowOffset y r) m with hlt | rfl | hgt
    · simp [hlt, Nat.ne_of_lt hlt, Nat.lt_succ_of_lt hlt]
    · simp
    · simp [Nat.ne_of_gt hgt, Nat.not_lt_of_gt hgt, Nat.not_lt_of_ge hgt]

theorem plotRows_collision (s : State) (origin x y : Nat) {m : Nat} (hm : m ≤ 32) :
    (plotRows s origin x y m).2 = true ↔
      ∃ j < m, ∃ b < 8, FrameBuffer.pixel s.fb (y + j) (x + b) = true ∧
        spriteBit (s.readByte (origin + j)) b = true := by
  induction m with
  | zero => simp [plotRows]
  | succ m ih =>
    have hfresh (b : Nat) : FrameBuffer.pixel (plotRows s origin x y m).1 (y + m) (x + b) =
        FrameBuffer.pixel s.fb (y + m) (x + b) := by
      rw [plotRows_pixel s origin x y (by omega), spriteAt, (row_eq_iff (show m < 32 by omega)).mp rfl]
      simp
    simp only [plotRows_succ, plotBits_collision _ _ _ _ (show 8 ≤ 64 by decide), ih (by omega), hfresh,
      Nat.exists_lt_succ_right]

/-- The sprite collides where it has a set bit on a set pixel. -/
theorem plotRows_collision_iff (s : State) (origin x y : Nat) {m : Nat} (hm : m ≤ 32) :
    (plotRows s origin x y m).2 = true ↔
      ∃ r < 32, ∃ c < 64, FrameBuffer.pixel s.fb r c = true ∧ spriteAt s origin x y m r c = true := by
  rw [plotRows_collision s origin x y hm]
  constructor
  · rintro ⟨j, hj, b, hb, hpixel, hbit⟩
    refine ⟨(y + j) % 32, by omega, (x + b) % 64, by omega, ?_, ?_⟩
    · rwa [FrameBuffer.pixel_congr s.fb (Nat.mod_mod _ _) (Nat.mod_mod _ _)]
    · have hrow : rowOffset y ((y + j) % 32) = j := (row_eq_iff (by omega)).mp (Nat.mod_mod _ _).symm
      have hcol : colOffset x ((x + b) % 64) = b := (col_eq_iff (by omega)).mp (Nat.mod_mod _ _).symm
      simp [spriteAt, hrow, hcol, hj, hb, hbit]
  · rintro ⟨r, -, c, -, hpixel, hhit⟩
    simp only [spriteAt, Bool.and_eq_true, decide_eq_true_eq] at hhit
    obtain ⟨⟨hrow, hcol⟩, hbit⟩ := hhit
    refine ⟨rowOffset y r, hrow, colOffset x c, hcol, ?_, hbit⟩
    rwa [FrameBuffer.pixel_congr s.fb ((row_eq_iff (by omega)).mpr rfl) ((col_eq_iff (by omega)).mpr rfl)]

theorem spriteBit_eq (byte : Byte) (b : Nat) : spriteBit byte b = byte.getLsbD (7 - b) := by
  rw [spriteBit, BitVec.getLsbD, Nat.testBit_eq_decide_div_mod_eq]

/-- The sprite of DRW, as the statements speak of it. -/
theorem spriteHits_eq (s : State) (x y : Reg) (n : Nibble) (r c : Nat) :
    SpriteHits s x y n r c = spriteAt s s.i.toNat (s.getV x).toNat (s.getV y).toNat n.toNat r c := by
  rw [spriteAt, spriteBit_eq]
  rfl

/-! ### CLS and DRW -/

/-- Settles O46: the clear framebuffer, sent. -/
theorem clsClearsTheScreen : Obligations.ClsClearsTheScreen := by
  unfold Obligations.ClsClearsTheScreen
  refine fun s => ⟨_, rfl, FrameBuffer.pixel_clear, rfl, ?_⟩
  simp [SameCore, SameRegs, SameMemory, SameStack, SameTimers, SameMode, SameOutside]

/-- The state DRW leaves: the composed framebuffer, its collision in VF, and one frame. -/
def State.drawn (s : State) (x y : Reg) (n : Nibble) : State :=
  let c := plotRows s s.i.toNat (s.getV x).toNat (s.getV y).toNat n.toNat
  ((s.setFB c.1).setV VF (flagByte c.2)).notifyRender

theorem exec_drw (x y : Reg) (n : Nibble) (s : State) : exec (.drw x y n) s = .next (s.drawn x y n) := by
  rw [exec, execDrw, drawSprite_eq]
  rfl

theorem nibble_le (n : Nibble) : n.toNat ≤ 32 := Nat.le_of_lt (n.isLt.trans (by decide))

theorem State.drawn_pixel (s : State) (x y : Reg) (n : Nibble) (r c : Nat) :
    FrameBuffer.pixel (s.drawn x y n).fb r c = (FrameBuffer.pixel s.fb r c ^^ SpriteHits s x y n r c) := by
  rw [spriteHits_eq]
  exact plotRows_pixel s _ _ _ (nibble_le n) r c

theorem State.drawn_flag (s : State) (x y : Reg) (n : Nibble) :
    (s.drawn x y n).getV VF =
      flagByte (plotRows s s.i.toNat (s.getV x).toNat (s.getV y).toNat n.toNat).2 := by
  rw [State.drawn, State.notifyRender_getV, State.getV_setV_self]

theorem State.drawn_collision (s : State) (x y : Reg) (n : Nibble) :
    (s.drawn x y n).getV VF = 1 ↔
      ∃ r < 32, ∃ c < 64, FrameBuffer.pixel s.fb r c = true ∧ SpriteHits s x y n r c = true := by
  simp only [spriteHits_eq]
  rw [State.drawn_flag, flagByte_eq_one_iff, plotRows_collision_iff s _ _ _ (nibble_le n)]

theorem State.drawn_no_collision (s : State) (x y : Reg) (n : Nibble) (h : (s.drawn x y n).getV VF ≠ 1) :
    (s.drawn x y n).getV VF = 0 := by
  rw [State.drawn_flag] at h ⊢
  exact (flagByte_zero_or_one _).resolve_right h

/-- Settles O47: the composed screen is the XOR with the sprite, and VF whether they overlap. -/
theorem drwXorsTheSprite : Obligations.DrwXorsTheSprite := by
  unfold Obligations.DrwXorsTheSprite
  refine fun x y n s => ⟨_, exec_drw x y n s, fun r _ c _ => ?pixels, (s.drawn_collision x y n).mpr,
    fun hmiss => s.drawn_no_collision x y n fun hone => ?collision, rfl, fun r hr => ?registers, rfl, rfl,
    fun a => rfl, ?frame⟩
  case pixels => rw [s.drawn_pixel, Bool.bne_eq_xor]
  case collision =>
    obtain ⟨r, hr, c, hc, hset, hhit⟩ := (s.drawn_collision x y n).mp hone
    rw [hmiss r hr c hc hset] at hhit
    cases hhit
  case registers =>
    rw [State.drawn, State.notifyRender_getV, State.getV_setV, if_neg (Ne.symm hr), State.setFB_getV]
  case frame => simp [State.drawn, SameStack, SameTimers, SameMode, SameOutside]

/-- Where the coordinate registers have kept their values, the second sprite is the first. -/
theorem spriteHits_drawn {s : State} {x y : Reg} {n : Nibble} (hx : (s.drawn x y n).getV x = s.getV x)
    (hy : (s.drawn x y n).getV y = s.getV y) (r c : Nat) :
    SpriteHits (s.drawn x y n) x y n r c = SpriteHits s x y n r c := by
  rw [SpriteHits, hx, hy]
  rfl

/-- Settles O48: XOR with the same sprite twice is the identity, and a pixel is set in between where exactly
one of the old pixel and the sprite's bit is. -/
theorem drawTwiceRestores : Obligations.DrawTwiceRestores := by
  unfold Obligations.DrawTwiceRestores
  intro x y n s t h hx hy
  obtain rfl := Host.Outcome.next.inj ((exec_drw x y n s).symm.trans h)
  refine ⟨_, exec_drw x y n _, FrameBuffer.ext_pixel fun r _ c _ => ?_, ?_⟩
  · rw [State.drawn_pixel, State.drawn_pixel, spriteHits_drawn hx hy, Bool.xor_assoc, Bool.xor_self,
      Bool.xor_false]
  · rw [State.drawn_collision]
    have hset (r c : Nat) : FrameBuffer.pixel (s.drawn x y n).fb r c = true ∧ SpriteHits s x y n r c = true ↔
        FrameBuffer.pixel s.fb r c = false ∧ SpriteHits s x y n r c = true := by
      rw [State.drawn_pixel]
      cases FrameBuffer.pixel s.fb r c <;> cases SpriteHits s x y n r c <;> decide
    simp only [spriteHits_drawn hx hy, hset]

/-- The reset state with every pixel set; I points at the glyph of 0, whose first byte is not 0. -/
def litState : State := { State.reset with fb := Vector.replicate 32 (Vector.replicate 64 true) }

theorem litState_pixel (r c : Nat) : FrameBuffer.pixel litState.fb r c = true := by
  simp [litState, FrameBuffer.pixel]

/-- Refutes O49: on a screen with every pixel set, one row of the glyph of 0 drawn twice is erased and then set
again, so the second draw has no collision, and the row is not blank. -/
theorem not_secondDrawCollidesIffSpriteNotBlank : ¬ Obligations.SecondDrawCollidesIffSpriteNotBlank := by
  unfold Obligations.SecondDrawCollidesIffSpriteNotBlank
  intro h
  have hx : (litState.drawn 0 1 1).getV 0 = litState.getV 0 := rfl
  have hy : (litState.drawn 0 1 1).getV 1 = litState.getV 1 := rfl
  obtain ⟨u, hu, -, hcollides⟩ := drawTwiceRestores 0 1 1 litState _ (exec_drw 0 1 1 _) hx hy
  have hnotBlank : litState.readByte (litState.i.toNat + 0) ≠ 0 := by decide
  have hone := (h 0 1 1 litState _ u (exec_drw 0 1 1 _) hx hy hu).mpr ⟨0, by decide, hnotBlank⟩
  obtain ⟨r, -, c, -, hclear, -⟩ := hcollides.mp hone
  rw [litState_pixel] at hclear
  cases hclear

end Sys2Proof.Machine
end

section
/-! Flags (10_state.md section 1, 42_alu.md section 2), and the sample words of the opcode map. -/

namespace Sys2Proof.Machine

/-- The six flag-writing instructions by what they do: a result with its flag, or a sprite. -/
theorem writesFlag_iff (i : Instr) :
    WritesFlag i ↔ (∃ x, shapeOf i = .flag x) ∨ ∃ x y n, i = .drw x y n := by
  cases i <;> simp [WritesFlag, shapeOf]

theorem namesVFAsDestination_of_write {i : Instr} (h : shapeOf i = .write VF) : NamesVFAsDestination i := by
  cases i <;> simp_all [shapeOf, NamesVFAsDestination]

/-- What an effect leaves in VF: a flag where the instruction writes one, and else the old value unless VF is
named as a destination. -/
theorem Effect.flag_rule {i : Instr} {s t : State} (h : Effect s i t) :
    (WritesFlag i → t.getV VF = 0 ∨ t.getV VF = 1) ∧
    (¬ WritesFlag i → ¬ NamesVFAsDestination i → t.getV VF = s.getV VF) := by
  rw [writesFlag_iff]
  cases h with
  | flag b c hi =>
    refine ⟨fun _ => ?_, fun hnot => absurd (.inl ⟨_, hi⟩) hnot⟩
    rw [State.getV_setVFlag_flag]
    exact flagByte_zero_or_one c
  | draw x y n f c =>
    refine ⟨fun _ => ?_, fun hnot => absurd (.inr ⟨x, y, n, rfl⟩) hnot⟩
    rw [State.notifyRender_getV, State.setFlag_eq, State.getV_setV_self]
    exact flagByte_zero_or_one c
  | @write _ x b hi =>
    refine ⟨?_, fun _ hnames => ?_⟩
    · rintro (⟨y, hy⟩ | ⟨x, y, n, rfl⟩)
      · rw [hi] at hy; cases hy
      · cases hi
    · have hx : x ≠ VF := by rintro rfl; exact hnames (namesVFAsDestination_of_write hi)
      rw [State.getV_setV, if_neg hx]
  | skip _ hi | jump _ hi | index _ hi =>
    refine ⟨?_, fun _ _ => by simp⟩
    rintro (⟨y, hy⟩ | ⟨x, y, n, rfl⟩)
    · rw [hi] at hy; cases hy
    · cases hi
  | loadRegs x =>
    refine ⟨by simp [shapeOf], fun _ hnames => ?_⟩
    have hx : x ≠ VF := by rintro rfl; simp [NamesVFAsDestination] at hnames
    have hmem : VF ∉ regsUpTo x := by
      rw [mem_regsUpTo]
      exact fun hle => hx (Fin.ext (by have := x.isLt; simp at hle ⊢; omega))
    rw [State.afterBlock_getV, State.getV_loadFrom, if_neg hmem]
  | _ => exact ⟨by simp [shapeOf], fun _ _ => by simp⟩

/-- The flag a result leaves in VF is its condition, also when VF is the destination (D7). -/
theorem setVFlag_flag_iff {i : Instr} {s t : State} {x : Reg} {b : Byte} {c : Bool} {flag : Prop}
    (hexec : exec i s = .next (s.setVFlag x b c)) (hc : c = true ↔ flag) (h : exec i s = .next t) :
    t.getV VF = 1 ↔ flag := by
  obtain rfl := Host.Outcome.next.inj (hexec.symm.trans h)
  rw [State.getV_setVFlag_flag, flagByte_eq_one_iff, hc]

/-- Settles O23: the rule over all effects, then the condition of each flag. -/
theorem flagsGoOnlyToVF : Obligations.FlagsGoOnlyToVF := by
  unfold Obligations.FlagsGoOnlyToVF
  refine ⟨fun i s t h => (exec_next h).flag_rule, fun x y s t _ => ?arithmetic, fun x y n s t h => ?drawing⟩
  case arithmetic =>
    exact ⟨setVFlag_flag_iff rfl (carryOut_iff _ _), setVFlag_flag_iff rfl (notBorrow_iff _ _),
      setVFlag_flag_iff rfl (notBorrow_iff _ _), setVFlag_flag_iff rfl (lowBit_iff _),
      setVFlag_flag_iff rfl (highBit_iff _)⟩
  case drawing =>
    obtain rfl := Host.Outcome.next.inj ((exec_drw x y n s).symm.trans h)
    have hcleared (r c : Nat) : FrameBuffer.pixel s.fb r c = true ∧ SpriteHits s x y n r c = true ↔
        FrameBuffer.pixel s.fb r c = true ∧ FrameBuffer.pixel (s.drawn x y n).fb r c = false := by
      rw [State.drawn_pixel]
      cases FrameBuffer.pixel s.fb r c <;> cases SpriteHits s x y n r c <;> decide
    rw [State.drawn_collision]
    simp only [hcleared]

end Sys2Proof.Machine

namespace Sys2Proof

/-- Settles O1: each word is evaluated. -/
theorem sampleWordsDecode : Obligations.SampleWordsDecode := by
  unfold Obligations.SampleWordsDecode
  decide

end Sys2Proof
end
